-- ==== Sys2Proof/Word.lean ====
section
/-! DEFINITION. The byte and word types of the 6510 and their plainest arithmetic
(00_scope.md R9, R12, R13). -/

namespace Sys2Proof

/-- One byte: the width of the CPU data bus and of A, X, Y and S (R9). -/
abbrev Byte := BitVec 8

/-- One 16-bit value: an address or PC (R9). -/
abbrev Word := BitVec 16

/-- A 4-bit value: a colour index or a colour-RAM cell (R57, R80). -/
abbrev Nibble := BitVec 4

/-- `hi:lo`, the notation of R13. -/
def word (hi lo : Byte) : Word := hi ++ lo

/-- Bits 15..8 of a word. -/
def hiByte (w : Word) : Byte := w.extractLsb' 8 8

/-- Bits 7..0 of a word. -/
def loByte (w : Word) : Byte := w.extractLsb' 0 8

/-- `zext_16` (R13). -/
def zext16 (b : Byte) : Word := b.setWidth 16

/-- `sext_16` (R13). -/
def sext16 (b : Byte) : Word := b.signExtend 16

theorem getLsbD_word (hi lo : Byte) (i : Nat) :
    (word hi lo).getLsbD i = if i < 8 then lo.getLsbD i else hi.getLsbD (i - 8) :=
  BitVec.getLsbD_append

@[simp] theorem hiByte_word (hi lo : Byte) : hiByte (word hi lo) = hi := by
  apply BitVec.eq_of_getLsbD_eq
  intro i h
  rw [hiByte, BitVec.getLsbD_extractLsb', getLsbD_word]
  simp [h]

@[simp] theorem loByte_word (hi lo : Byte) : loByte (word hi lo) = lo := by
  apply BitVec.eq_of_getLsbD_eq
  intro i h
  rw [loByte, BitVec.getLsbD_extractLsb', getLsbD_word]
  simp [h]

end Sys2Proof
end

