-- ==== Sys2Proof/Syntax.lean ====
section
/-! DEFINITION. The instructions, one constructor per row of spec/opcode_table.json (30_encoding.md R284), with the
operand bytes of the row's format (R281): `imm` an immediate byte, `zp` a zero-page address, base or pointer,
`lo hi` the two bytes of an absolute address, base or pointer, `off` a relative offset. -/

namespace Sys2Proof

/-- The addressing modes of R281, under the ids of spec/opcode_table.json. -/
inductive Mode where
  | imp | acc | imm | zp | zpx | zpy | abs | abx | aby | ind | izx | izy | rel
deriving DecidableEq, Repr

/-- The length in bytes of an instruction of each mode (R281). -/
def Mode.length : Mode → Nat
  | .imp => 1
  | .acc => 1
  | .imm => 2
  | .zp => 2
  | .zpx => 2
  | .zpy => 2
  | .abs => 3
  | .abx => 3
  | .aby => 3
  | .ind => 3
  | .izx => 2
  | .izy => 2
  | .rel => 2

/-- The 256 opcodes: 151 legal, 57 admitted undocumented, 48 refused.  Those with operand bytes stand first, because
Lean's runtime numbers only 244 constructors with fields. -/
inductive Instr where
  /-- $01 ORA (zp,X) (R413). -/
  | oraIzx (zp : Byte)
  /-- $03 SLO (zp,X) (R506, undocumented). -/
  | sloIzx (zp : Byte)
  /-- $04 NOP zp (R521, refused). -/
  | nopZp04 (zp : Byte)
  /-- $05 ORA zp (R413). -/
  | oraZp (zp : Byte)
  /-- $06 ASL zp (R425). -/
  | aslZp (zp : Byte)
  /-- $07 SLO zp (R506, undocumented). -/
  | sloZp (zp : Byte)
  /-- $09 ORA #imm8 (R413). -/
  | oraImm (imm : Byte)
  /-- $0B ANC #imm8 (R508, undocumented). -/
  | ancImm0B (imm : Byte)
  /-- $0C NOP abs (R521, refused). -/
  | nopAbs0C (lo hi : Byte)
  /-- $0D ORA abs (R413). -/
  | oraAbs (lo hi : Byte)
  /-- $0E ASL abs (R425). -/
  | aslAbs (lo hi : Byte)
  /-- $0F SLO abs (R506, undocumented). -/
  | sloAbs (lo hi : Byte)
  /-- $10 BPL rel (R456). -/
  | bplRel (off : Byte)
  /-- $11 ORA (zp),Y (R413). -/
  | oraIzy (zp : Byte)
  /-- $13 SLO (zp),Y (R506, undocumented). -/
  | sloIzy (zp : Byte)
  /-- $14 NOP zp,X (R521, refused). -/
  | nopZpx14 (zp : Byte)
  /-- $15 ORA zp,X (R413). -/
  | oraZpx (zp : Byte)
  /-- $16 ASL zp,X (R425). -/
  | aslZpx (zp : Byte)
  /-- $17 SLO zp,X (R506, undocumented). -/
  | sloZpx (zp : Byte)
  /-- $19 ORA abs,Y (R413). -/
  | oraAby (lo hi : Byte)
  /-- $1B SLO abs,Y (R506, undocumented). -/
  | sloAby (lo hi : Byte)
  /-- $1C NOP abs,X (R521, refused). -/
  | nopAbx1C (lo hi : Byte)
  /-- $1D ORA abs,X (R413). -/
  | oraAbx (lo hi : Byte)
  /-- $1E ASL abs,X (R425). -/
  | aslAbx (lo hi : Byte)
  /-- $1F SLO abs,X (R506, undocumented). -/
  | sloAbx (lo hi : Byte)
  /-- $20 JSR abs (R462). -/
  | jsrAbs (lo hi : Byte)
  /-- $21 AND (zp,X) (R412). -/
  | andIzx (zp : Byte)
  /-- $23 RLA (zp,X) (R504, undocumented). -/
  | rlaIzx (zp : Byte)
  /-- $24 BIT zp (R418). -/
  | bitZp (zp : Byte)
  /-- $25 AND zp (R412). -/
  | andZp (zp : Byte)
  /-- $26 ROL zp (R427). -/
  | rolZp (zp : Byte)
  /-- $27 RLA zp (R504, undocumented). -/
  | rlaZp (zp : Byte)
  /-- $29 AND #imm8 (R412). -/
  | andImm (imm : Byte)
  /-- $2B ANC #imm8 (R508, undocumented). -/
  | ancImm2B (imm : Byte)
  /-- $2C BIT abs (R418). -/
  | bitAbs (lo hi : Byte)
  /-- $2D AND abs (R412). -/
  | andAbs (lo hi : Byte)
  /-- $2E ROL abs (R427). -/
  | rolAbs (lo hi : Byte)
  /-- $2F RLA abs (R504, undocumented). -/
  | rlaAbs (lo hi : Byte)
  /-- $30 BMI rel (R454). -/
  | bmiRel (off : Byte)
  /-- $31 AND (zp),Y (R412). -/
  | andIzy (zp : Byte)
  /-- $33 RLA (zp),Y (R504, undocumented). -/
  | rlaIzy (zp : Byte)
  /-- $34 NOP zp,X (R521, refused). -/
  | nopZpx34 (zp : Byte)
  /-- $35 AND zp,X (R412). -/
  | andZpx (zp : Byte)
  /-- $36 ROL zp,X (R427). -/
  | rolZpx (zp : Byte)
  /-- $37 RLA zp,X (R504, undocumented). -/
  | rlaZpx (zp : Byte)
  /-- $39 AND abs,Y (R412). -/
  | andAby (lo hi : Byte)
  /-- $3B RLA abs,Y (R504, undocumented). -/
  | rlaAby (lo hi : Byte)
  /-- $3C NOP abs,X (R521, refused). -/
  | nopAbx3C (lo hi : Byte)
  /-- $3D AND abs,X (R412). -/
  | andAbx (lo hi : Byte)
  /-- $3E ROL abs,X (R427). -/
  | rolAbx (lo hi : Byte)
  /-- $3F RLA abs,X (R504, undocumented). -/
  | rlaAbx (lo hi : Byte)
  /-- $41 EOR (zp,X) (R414). -/
  | eorIzx (zp : Byte)
  /-- $43 SRE (zp,X) (R507, undocumented). -/
  | sreIzx (zp : Byte)
  /-- $44 NOP zp (R521, refused). -/
  | nopZp44 (zp : Byte)
  /-- $45 EOR zp (R414). -/
  | eorZp (zp : Byte)
  /-- $46 LSR zp (R426). -/
  | lsrZp (zp : Byte)
  /-- $47 SRE zp (R507, undocumented). -/
  | sreZp (zp : Byte)
  /-- $49 EOR #imm8 (R414). -/
  | eorImm (imm : Byte)
  /-- $4B ALR #imm8 (R509, undocumented). -/
  | alrImm (imm : Byte)
  /-- $4C JMP abs (R460). -/
  | jmpAbs (lo hi : Byte)
  /-- $4D EOR abs (R414). -/
  | eorAbs (lo hi : Byte)
  /-- $4E LSR abs (R426). -/
  | lsrAbs (lo hi : Byte)
  /-- $4F SRE abs (R507, undocumented). -/
  | sreAbs (lo hi : Byte)
  /-- $50 BVC rel (R457). -/
  | bvcRel (off : Byte)
  /-- $51 EOR (zp),Y (R414). -/
  | eorIzy (zp : Byte)
  /-- $53 SRE (zp),Y (R507, undocumented). -/
  | sreIzy (zp : Byte)
  /-- $54 NOP zp,X (R521, refused). -/
  | nopZpx54 (zp : Byte)
  /-- $55 EOR zp,X (R414). -/
  | eorZpx (zp : Byte)
  /-- $56 LSR zp,X (R426). -/
  | lsrZpx (zp : Byte)
  /-- $57 SRE zp,X (R507, undocumented). -/
  | sreZpx (zp : Byte)
  /-- $59 EOR abs,Y (R414). -/
  | eorAby (lo hi : Byte)
  /-- $5B SRE abs,Y (R507, undocumented). -/
  | sreAby (lo hi : Byte)
  /-- $5C NOP abs,X (R521, refused). -/
  | nopAbx5C (lo hi : Byte)
  /-- $5D EOR abs,X (R414). -/
  | eorAbx (lo hi : Byte)
  /-- $5E LSR abs,X (R426). -/
  | lsrAbx (lo hi : Byte)
  /-- $5F SRE abs,X (R507, undocumented). -/
  | sreAbx (lo hi : Byte)
  /-- $61 ADC (zp,X) (R410). -/
  | adcIzx (zp : Byte)
  /-- $63 RRA (zp,X) (R505, undocumented). -/
  | rraIzx (zp : Byte)
  /-- $64 NOP zp (R521, refused). -/
  | nopZp64 (zp : Byte)
  /-- $65 ADC zp (R410). -/
  | adcZp (zp : Byte)
  /-- $66 ROR zp (R428). -/
  | rorZp (zp : Byte)
  /-- $67 RRA zp (R505, undocumented). -/
  | rraZp (zp : Byte)
  /-- $69 ADC #imm8 (R410). -/
  | adcImm (imm : Byte)
  /-- $6B ARR #imm8 (R510, undocumented). -/
  | arrImm (imm : Byte)
  /-- $6C JMP (abs) (R461). -/
  | jmpInd (lo hi : Byte)
  /-- $6D ADC abs (R410). -/
  | adcAbs (lo hi : Byte)
  /-- $6E ROR abs (R428). -/
  | rorAbs (lo hi : Byte)
  /-- $6F RRA abs (R505, undocumented). -/
  | rraAbs (lo hi : Byte)
  /-- $70 BVS rel (R458). -/
  | bvsRel (off : Byte)
  /-- $71 ADC (zp),Y (R410). -/
  | adcIzy (zp : Byte)
  /-- $73 RRA (zp),Y (R505, undocumented). -/
  | rraIzy (zp : Byte)
  /-- $74 NOP zp,X (R521, refused). -/
  | nopZpx74 (zp : Byte)
  /-- $75 ADC zp,X (R410). -/
  | adcZpx (zp : Byte)
  /-- $76 ROR zp,X (R428). -/
  | rorZpx (zp : Byte)
  /-- $77 RRA zp,X (R505, undocumented). -/
  | rraZpx (zp : Byte)
  /-- $79 ADC abs,Y (R410). -/
  | adcAby (lo hi : Byte)
  /-- $7B RRA abs,Y (R505, undocumented). -/
  | rraAby (lo hi : Byte)
  /-- $7C NOP abs,X (R521, refused). -/
  | nopAbx7C (lo hi : Byte)
  /-- $7D ADC abs,X (R410). -/
  | adcAbx (lo hi : Byte)
  /-- $7E ROR abs,X (R428). -/
  | rorAbx (lo hi : Byte)
  /-- $7F RRA abs,X (R505, undocumented). -/
  | rraAbx (lo hi : Byte)
  /-- $80 NOP #imm8 (R521, refused). -/
  | nopImm80 (imm : Byte)
  /-- $81 STA (zp,X) (R343). -/
  | staIzx (zp : Byte)
  /-- $82 NOP #imm8 (R521, refused). -/
  | nopImm82 (imm : Byte)
  /-- $83 SAX (zp,X) (R501, undocumented). -/
  | saxIzx (zp : Byte)
  /-- $84 STY zp (R345). -/
  | styZp (zp : Byte)
  /-- $85 STA zp (R343). -/
  | staZp (zp : Byte)
  /-- $86 STX zp (R344). -/
  | stxZp (zp : Byte)
  /-- $87 SAX zp (R501, undocumented). -/
  | saxZp (zp : Byte)
  /-- $89 NOP #imm8 (R521, refused). -/
  | nopImm89 (imm : Byte)
  /-- $8B ANE #imm8 (R522, refused). -/
  | aneImm (imm : Byte)
  /-- $8C STY abs (R345). -/
  | styAbs (lo hi : Byte)
  /-- $8D STA abs (R343). -/
  | staAbs (lo hi : Byte)
  /-- $8E STX abs (R344). -/
  | stxAbs (lo hi : Byte)
  /-- $8F SAX abs (R501, undocumented). -/
  | saxAbs (lo hi : Byte)
  /-- $90 BCC rel (R451). -/
  | bccRel (off : Byte)
  /-- $91 STA (zp),Y (R343). -/
  | staIzy (zp : Byte)
  /-- $93 SHA (zp),Y (R522, refused). -/
  | shaIzy (zp : Byte)
  /-- $94 STY zp,X (R345). -/
  | styZpx (zp : Byte)
  /-- $95 STA zp,X (R343). -/
  | staZpx (zp : Byte)
  /-- $96 STX zp,Y (R344). -/
  | stxZpy (zp : Byte)
  /-- $97 SAX zp,Y (R501, undocumented). -/
  | saxZpy (zp : Byte)
  /-- $99 STA abs,Y (R343). -/
  | staAby (lo hi : Byte)
  /-- $9B TAS abs,Y (R522, refused). -/
  | tasAby (lo hi : Byte)
  /-- $9C SHY abs,X (R522, refused). -/
  | shyAbx (lo hi : Byte)
  /-- $9D STA abs,X (R343). -/
  | staAbx (lo hi : Byte)
  /-- $9E SHX abs,Y (R522, refused). -/
  | shxAby (lo hi : Byte)
  /-- $9F SHA abs,Y (R522, refused). -/
  | shaAby (lo hi : Byte)
  /-- $A0 LDY #imm8 (R342). -/
  | ldyImm (imm : Byte)
  /-- $A1 LDA (zp,X) (R340). -/
  | ldaIzx (zp : Byte)
  /-- $A2 LDX #imm8 (R341). -/
  | ldxImm (imm : Byte)
  /-- $A3 LAX (zp,X) (R500, undocumented). -/
  | laxIzx (zp : Byte)
  /-- $A4 LDY zp (R342). -/
  | ldyZp (zp : Byte)
  /-- $A5 LDA zp (R340). -/
  | ldaZp (zp : Byte)
  /-- $A6 LDX zp (R341). -/
  | ldxZp (zp : Byte)
  /-- $A7 LAX zp (R500, undocumented). -/
  | laxZp (zp : Byte)
  /-- $A9 LDA #imm8 (R340). -/
  | ldaImm (imm : Byte)
  /-- $AB LXA #imm8 (R522, refused). -/
  | lxaImm (imm : Byte)
  /-- $AC LDY abs (R342). -/
  | ldyAbs (lo hi : Byte)
  /-- $AD LDA abs (R340). -/
  | ldaAbs (lo hi : Byte)
  /-- $AE LDX abs (R341). -/
  | ldxAbs (lo hi : Byte)
  /-- $AF LAX abs (R500, undocumented). -/
  | laxAbs (lo hi : Byte)
  /-- $B0 BCS rel (R452). -/
  | bcsRel (off : Byte)
  /-- $B1 LDA (zp),Y (R340). -/
  | ldaIzy (zp : Byte)
  /-- $B3 LAX (zp),Y (R500, undocumented). -/
  | laxIzy (zp : Byte)
  /-- $B4 LDY zp,X (R342). -/
  | ldyZpx (zp : Byte)
  /-- $B5 LDA zp,X (R340). -/
  | ldaZpx (zp : Byte)
  /-- $B6 LDX zp,Y (R341). -/
  | ldxZpy (zp : Byte)
  /-- $B7 LAX zp,Y (R500, undocumented). -/
  | laxZpy (zp : Byte)
  /-- $B9 LDA abs,Y (R340). -/
  | ldaAby (lo hi : Byte)
  /-- $BB LAS abs,Y (R522, refused). -/
  | lasAby (lo hi : Byte)
  /-- $BC LDY abs,X (R342). -/
  | ldyAbx (lo hi : Byte)
  /-- $BD LDA abs,X (R340). -/
  | ldaAbx (lo hi : Byte)
  /-- $BE LDX abs,Y (R341). -/
  | ldxAby (lo hi : Byte)
  /-- $BF LAX abs,Y (R500, undocumented). -/
  | laxAby (lo hi : Byte)
  /-- $C0 CPY #imm8 (R417). -/
  | cpyImm (imm : Byte)
  /-- $C1 CMP (zp,X) (R415). -/
  | cmpIzx (zp : Byte)
  /-- $C2 NOP #imm8 (R521, refused). -/
  | nopImmC2 (imm : Byte)
  /-- $C3 DCP (zp,X) (R502, undocumented). -/
  | dcpIzx (zp : Byte)
  /-- $C4 CPY zp (R417). -/
  | cpyZp (zp : Byte)
  /-- $C5 CMP zp (R415). -/
  | cmpZp (zp : Byte)
  /-- $C6 DEC zp (R420). -/
  | decZp (zp : Byte)
  /-- $C7 DCP zp (R502, undocumented). -/
  | dcpZp (zp : Byte)
  /-- $C9 CMP #imm8 (R415). -/
  | cmpImm (imm : Byte)
  /-- $CB SBX #imm8 (R511, undocumented). -/
  | sbxImm (imm : Byte)
  /-- $CC CPY abs (R417). -/
  | cpyAbs (lo hi : Byte)
  /-- $CD CMP abs (R415). -/
  | cmpAbs (lo hi : Byte)
  /-- $CE DEC abs (R420). -/
  | decAbs (lo hi : Byte)
  /-- $CF DCP abs (R502, undocumented). -/
  | dcpAbs (lo hi : Byte)
  /-- $D0 BNE rel (R455). -/
  | bneRel (off : Byte)
  /-- $D1 CMP (zp),Y (R415). -/
  | cmpIzy (zp : Byte)
  /-- $D3 DCP (zp),Y (R502, undocumented). -/
  | dcpIzy (zp : Byte)
  /-- $D4 NOP zp,X (R521, refused). -/
  | nopZpxD4 (zp : Byte)
  /-- $D5 CMP zp,X (R415). -/
  | cmpZpx (zp : Byte)
  /-- $D6 DEC zp,X (R420). -/
  | decZpx (zp : Byte)
  /-- $D7 DCP zp,X (R502, undocumented). -/
  | dcpZpx (zp : Byte)
  /-- $D9 CMP abs,Y (R415). -/
  | cmpAby (lo hi : Byte)
  /-- $DB DCP abs,Y (R502, undocumented). -/
  | dcpAby (lo hi : Byte)
  /-- $DC NOP abs,X (R521, refused). -/
  | nopAbxDC (lo hi : Byte)
  /-- $DD CMP abs,X (R415). -/
  | cmpAbx (lo hi : Byte)
  /-- $DE DEC abs,X (R420). -/
  | decAbx (lo hi : Byte)
  /-- $DF DCP abs,X (R502, undocumented). -/
  | dcpAbx (lo hi : Byte)
  /-- $E0 CPX #imm8 (R416). -/
  | cpxImm (imm : Byte)
  /-- $E1 SBC (zp,X) (R411). -/
  | sbcIzx (zp : Byte)
  /-- $E2 NOP #imm8 (R521, refused). -/
  | nopImmE2 (imm : Byte)
  /-- $E3 ISC (zp,X) (R503, undocumented). -/
  | iscIzx (zp : Byte)
  /-- $E4 CPX zp (R416). -/
  | cpxZp (zp : Byte)
  /-- $E5 SBC zp (R411). -/
  | sbcZp (zp : Byte)
  /-- $E6 INC zp (R419). -/
  | incZp (zp : Byte)
  /-- $E7 ISC zp (R503, undocumented). -/
  | iscZp (zp : Byte)
  /-- $E9 SBC #imm8 (R411). -/
  | sbcImm (imm : Byte)
  /-- $EB USBC #imm8 (R522, refused). -/
  | usbcImm (imm : Byte)
  /-- $EC CPX abs (R416). -/
  | cpxAbs (lo hi : Byte)
  /-- $ED SBC abs (R411). -/
  | sbcAbs (lo hi : Byte)
  /-- $EE INC abs (R419). -/
  | incAbs (lo hi : Byte)
  /-- $EF ISC abs (R503, undocumented). -/
  | iscAbs (lo hi : Byte)
  /-- $F0 BEQ rel (R453). -/
  | beqRel (off : Byte)
  /-- $F1 SBC (zp),Y (R411). -/
  | sbcIzy (zp : Byte)
  /-- $F3 ISC (zp),Y (R503, undocumented). -/
  | iscIzy (zp : Byte)
  /-- $F4 NOP zp,X (R521, refused). -/
  | nopZpxF4 (zp : Byte)
  /-- $F5 SBC zp,X (R411). -/
  | sbcZpx (zp : Byte)
  /-- $F6 INC zp,X (R419). -/
  | incZpx (zp : Byte)
  /-- $F7 ISC zp,X (R503, undocumented). -/
  | iscZpx (zp : Byte)
  /-- $F9 SBC abs,Y (R411). -/
  | sbcAby (lo hi : Byte)
  /-- $FB ISC abs,Y (R503, undocumented). -/
  | iscAby (lo hi : Byte)
  /-- $FC NOP abs,X (R521, refused). -/
  | nopAbxFC (lo hi : Byte)
  /-- $FD SBC abs,X (R411). -/
  | sbcAbx (lo hi : Byte)
  /-- $FE INC abs,X (R419). -/
  | incAbx (lo hi : Byte)
  /-- $FF ISC abs,X (R503, undocumented). -/
  | iscAbx (lo hi : Byte)
  /-- $00 BRK (R465). -/
  | brk
  /-- $02 JAM (R520, refused). -/
  | jam02
  /-- $08 PHP (R353). -/
  | php
  /-- $0A ASL A (R425). -/
  | aslAcc
  /-- $12 JAM (R520, refused). -/
  | jam12
  /-- $18 CLC (R470). -/
  | clc
  /-- $1A NOP (R521, refused). -/
  | nop1A
  /-- $22 JAM (R520, refused). -/
  | jam22
  /-- $28 PLP (R355). -/
  | plp
  /-- $2A ROL A (R427). -/
  | rolAcc
  /-- $32 JAM (R520, refused). -/
  | jam32
  /-- $38 SEC (R474). -/
  | sec
  /-- $3A NOP (R521, refused). -/
  | nop3A
  /-- $40 RTI (R464). -/
  | rti
  /-- $42 JAM (R520, refused). -/
  | jam42
  /-- $48 PHA (R352). -/
  | pha
  /-- $4A LSR A (R426). -/
  | lsrAcc
  /-- $52 JAM (R520, refused). -/
  | jam52
  /-- $58 CLI (R472). -/
  | cli
  /-- $5A NOP (R521, refused). -/
  | nop5A
  /-- $60 RTS (R463). -/
  | rts
  /-- $62 JAM (R520, refused). -/
  | jam62
  /-- $68 PLA (R354). -/
  | pla
  /-- $6A ROR A (R428). -/
  | rorAcc
  /-- $72 JAM (R520, refused). -/
  | jam72
  /-- $78 SEI (R476). -/
  | sei
  /-- $7A NOP (R521, refused). -/
  | nop7A
  /-- $88 DEY (R424). -/
  | dey
  /-- $8A TXA (R348). -/
  | txa
  /-- $92 JAM (R520, refused). -/
  | jam92
  /-- $98 TYA (R349). -/
  | tya
  /-- $9A TXS (R351). -/
  | txs
  /-- $A8 TAY (R347). -/
  | tay
  /-- $AA TAX (R346). -/
  | tax
  /-- $B2 JAM (R520, refused). -/
  | jamB2
  /-- $B8 CLV (R473). -/
  | clv
  /-- $BA TSX (R350). -/
  | tsx
  /-- $C8 INY (R422). -/
  | iny
  /-- $CA DEX (R423). -/
  | dex
  /-- $D2 JAM (R520, refused). -/
  | jamD2
  /-- $D8 CLD (R471). -/
  | cld
  /-- $DA NOP (R521, refused). -/
  | nopDA
  /-- $E8 INX (R421). -/
  | inx
  /-- $EA NOP (R477). -/
  | nop
  /-- $F2 JAM (R520, refused). -/
  | jamF2
  /-- $F8 SED (R475). -/
  | sed
  /-- $FA NOP (R521, refused). -/
  | nopFA
deriving DecidableEq, Repr

/-- The addressing mode of each instruction (R284). -/
def Instr.mode : Instr → Mode
  | .brk => .imp
  | .oraIzx _ => .izx
  | .jam02 => .imp
  | .sloIzx _ => .izx
  | .nopZp04 _ => .zp
  | .oraZp _ => .zp
  | .aslZp _ => .zp
  | .sloZp _ => .zp
  | .php => .imp
  | .oraImm _ => .imm
  | .aslAcc => .acc
  | .ancImm0B _ => .imm
  | .nopAbs0C _ _ => .abs
  | .oraAbs _ _ => .abs
  | .aslAbs _ _ => .abs
  | .sloAbs _ _ => .abs
  | .bplRel _ => .rel
  | .oraIzy _ => .izy
  | .jam12 => .imp
  | .sloIzy _ => .izy
  | .nopZpx14 _ => .zpx
  | .oraZpx _ => .zpx
  | .aslZpx _ => .zpx
  | .sloZpx _ => .zpx
  | .clc => .imp
  | .oraAby _ _ => .aby
  | .nop1A => .imp
  | .sloAby _ _ => .aby
  | .nopAbx1C _ _ => .abx
  | .oraAbx _ _ => .abx
  | .aslAbx _ _ => .abx
  | .sloAbx _ _ => .abx
  | .jsrAbs _ _ => .abs
  | .andIzx _ => .izx
  | .jam22 => .imp
  | .rlaIzx _ => .izx
  | .bitZp _ => .zp
  | .andZp _ => .zp
  | .rolZp _ => .zp
  | .rlaZp _ => .zp
  | .plp => .imp
  | .andImm _ => .imm
  | .rolAcc => .acc
  | .ancImm2B _ => .imm
  | .bitAbs _ _ => .abs
  | .andAbs _ _ => .abs
  | .rolAbs _ _ => .abs
  | .rlaAbs _ _ => .abs
  | .bmiRel _ => .rel
  | .andIzy _ => .izy
  | .jam32 => .imp
  | .rlaIzy _ => .izy
  | .nopZpx34 _ => .zpx
  | .andZpx _ => .zpx
  | .rolZpx _ => .zpx
  | .rlaZpx _ => .zpx
  | .sec => .imp
  | .andAby _ _ => .aby
  | .nop3A => .imp
  | .rlaAby _ _ => .aby
  | .nopAbx3C _ _ => .abx
  | .andAbx _ _ => .abx
  | .rolAbx _ _ => .abx
  | .rlaAbx _ _ => .abx
  | .rti => .imp
  | .eorIzx _ => .izx
  | .jam42 => .imp
  | .sreIzx _ => .izx
  | .nopZp44 _ => .zp
  | .eorZp _ => .zp
  | .lsrZp _ => .zp
  | .sreZp _ => .zp
  | .pha => .imp
  | .eorImm _ => .imm
  | .lsrAcc => .acc
  | .alrImm _ => .imm
  | .jmpAbs _ _ => .abs
  | .eorAbs _ _ => .abs
  | .lsrAbs _ _ => .abs
  | .sreAbs _ _ => .abs
  | .bvcRel _ => .rel
  | .eorIzy _ => .izy
  | .jam52 => .imp
  | .sreIzy _ => .izy
  | .nopZpx54 _ => .zpx
  | .eorZpx _ => .zpx
  | .lsrZpx _ => .zpx
  | .sreZpx _ => .zpx
  | .cli => .imp
  | .eorAby _ _ => .aby
  | .nop5A => .imp
  | .sreAby _ _ => .aby
  | .nopAbx5C _ _ => .abx
  | .eorAbx _ _ => .abx
  | .lsrAbx _ _ => .abx
  | .sreAbx _ _ => .abx
  | .rts => .imp
  | .adcIzx _ => .izx
  | .jam62 => .imp
  | .rraIzx _ => .izx
  | .nopZp64 _ => .zp
  | .adcZp _ => .zp
  | .rorZp _ => .zp
  | .rraZp _ => .zp
  | .pla => .imp
  | .adcImm _ => .imm
  | .rorAcc => .acc
  | .arrImm _ => .imm
  | .jmpInd _ _ => .ind
  | .adcAbs _ _ => .abs
  | .rorAbs _ _ => .abs
  | .rraAbs _ _ => .abs
  | .bvsRel _ => .rel
  | .adcIzy _ => .izy
  | .jam72 => .imp
  | .rraIzy _ => .izy
  | .nopZpx74 _ => .zpx
  | .adcZpx _ => .zpx
  | .rorZpx _ => .zpx
  | .rraZpx _ => .zpx
  | .sei => .imp
  | .adcAby _ _ => .aby
  | .nop7A => .imp
  | .rraAby _ _ => .aby
  | .nopAbx7C _ _ => .abx
  | .adcAbx _ _ => .abx
  | .rorAbx _ _ => .abx
  | .rraAbx _ _ => .abx
  | .nopImm80 _ => .imm
  | .staIzx _ => .izx
  | .nopImm82 _ => .imm
  | .saxIzx _ => .izx
  | .styZp _ => .zp
  | .staZp _ => .zp
  | .stxZp _ => .zp
  | .saxZp _ => .zp
  | .dey => .imp
  | .nopImm89 _ => .imm
  | .txa => .imp
  | .aneImm _ => .imm
  | .styAbs _ _ => .abs
  | .staAbs _ _ => .abs
  | .stxAbs _ _ => .abs
  | .saxAbs _ _ => .abs
  | .bccRel _ => .rel
  | .staIzy _ => .izy
  | .jam92 => .imp
  | .shaIzy _ => .izy
  | .styZpx _ => .zpx
  | .staZpx _ => .zpx
  | .stxZpy _ => .zpy
  | .saxZpy _ => .zpy
  | .tya => .imp
  | .staAby _ _ => .aby
  | .txs => .imp
  | .tasAby _ _ => .aby
  | .shyAbx _ _ => .abx
  | .staAbx _ _ => .abx
  | .shxAby _ _ => .aby
  | .shaAby _ _ => .aby
  | .ldyImm _ => .imm
  | .ldaIzx _ => .izx
  | .ldxImm _ => .imm
  | .laxIzx _ => .izx
  | .ldyZp _ => .zp
  | .ldaZp _ => .zp
  | .ldxZp _ => .zp
  | .laxZp _ => .zp
  | .tay => .imp
  | .ldaImm _ => .imm
  | .tax => .imp
  | .lxaImm _ => .imm
  | .ldyAbs _ _ => .abs
  | .ldaAbs _ _ => .abs
  | .ldxAbs _ _ => .abs
  | .laxAbs _ _ => .abs
  | .bcsRel _ => .rel
  | .ldaIzy _ => .izy
  | .jamB2 => .imp
  | .laxIzy _ => .izy
  | .ldyZpx _ => .zpx
  | .ldaZpx _ => .zpx
  | .ldxZpy _ => .zpy
  | .laxZpy _ => .zpy
  | .clv => .imp
  | .ldaAby _ _ => .aby
  | .tsx => .imp
  | .lasAby _ _ => .aby
  | .ldyAbx _ _ => .abx
  | .ldaAbx _ _ => .abx
  | .ldxAby _ _ => .aby
  | .laxAby _ _ => .aby
  | .cpyImm _ => .imm
  | .cmpIzx _ => .izx
  | .nopImmC2 _ => .imm
  | .dcpIzx _ => .izx
  | .cpyZp _ => .zp
  | .cmpZp _ => .zp
  | .decZp _ => .zp
  | .dcpZp _ => .zp
  | .iny => .imp
  | .cmpImm _ => .imm
  | .dex => .imp
  | .sbxImm _ => .imm
  | .cpyAbs _ _ => .abs
  | .cmpAbs _ _ => .abs
  | .decAbs _ _ => .abs
  | .dcpAbs _ _ => .abs
  | .bneRel _ => .rel
  | .cmpIzy _ => .izy
  | .jamD2 => .imp
  | .dcpIzy _ => .izy
  | .nopZpxD4 _ => .zpx
  | .cmpZpx _ => .zpx
  | .decZpx _ => .zpx
  | .dcpZpx _ => .zpx
  | .cld => .imp
  | .cmpAby _ _ => .aby
  | .nopDA => .imp
  | .dcpAby _ _ => .aby
  | .nopAbxDC _ _ => .abx
  | .cmpAbx _ _ => .abx
  | .decAbx _ _ => .abx
  | .dcpAbx _ _ => .abx
  | .cpxImm _ => .imm
  | .sbcIzx _ => .izx
  | .nopImmE2 _ => .imm
  | .iscIzx _ => .izx
  | .cpxZp _ => .zp
  | .sbcZp _ => .zp
  | .incZp _ => .zp
  | .iscZp _ => .zp
  | .inx => .imp
  | .sbcImm _ => .imm
  | .nop => .imp
  | .usbcImm _ => .imm
  | .cpxAbs _ _ => .abs
  | .sbcAbs _ _ => .abs
  | .incAbs _ _ => .abs
  | .iscAbs _ _ => .abs
  | .beqRel _ => .rel
  | .sbcIzy _ => .izy
  | .jamF2 => .imp
  | .iscIzy _ => .izy
  | .nopZpxF4 _ => .zpx
  | .sbcZpx _ => .zpx
  | .incZpx _ => .zpx
  | .iscZpx _ => .zpx
  | .sed => .imp
  | .sbcAby _ _ => .aby
  | .nopFA => .imp
  | .iscAby _ _ => .aby
  | .nopAbxFC _ _ => .abx
  | .sbcAbx _ _ => .abx
  | .incAbx _ _ => .abx
  | .iscAbx _ _ => .abx

/-- The opcode byte of each instruction (R284). -/
def Instr.opcode : Instr → Byte
  | .brk => 0x00
  | .oraIzx _ => 0x01
  | .jam02 => 0x02
  | .sloIzx _ => 0x03
  | .nopZp04 _ => 0x04
  | .oraZp _ => 0x05
  | .aslZp _ => 0x06
  | .sloZp _ => 0x07
  | .php => 0x08
  | .oraImm _ => 0x09
  | .aslAcc => 0x0A
  | .ancImm0B _ => 0x0B
  | .nopAbs0C _ _ => 0x0C
  | .oraAbs _ _ => 0x0D
  | .aslAbs _ _ => 0x0E
  | .sloAbs _ _ => 0x0F
  | .bplRel _ => 0x10
  | .oraIzy _ => 0x11
  | .jam12 => 0x12
  | .sloIzy _ => 0x13
  | .nopZpx14 _ => 0x14
  | .oraZpx _ => 0x15
  | .aslZpx _ => 0x16
  | .sloZpx _ => 0x17
  | .clc => 0x18
  | .oraAby _ _ => 0x19
  | .nop1A => 0x1A
  | .sloAby _ _ => 0x1B
  | .nopAbx1C _ _ => 0x1C
  | .oraAbx _ _ => 0x1D
  | .aslAbx _ _ => 0x1E
  | .sloAbx _ _ => 0x1F
  | .jsrAbs _ _ => 0x20
  | .andIzx _ => 0x21
  | .jam22 => 0x22
  | .rlaIzx _ => 0x23
  | .bitZp _ => 0x24
  | .andZp _ => 0x25
  | .rolZp _ => 0x26
  | .rlaZp _ => 0x27
  | .plp => 0x28
  | .andImm _ => 0x29
  | .rolAcc => 0x2A
  | .ancImm2B _ => 0x2B
  | .bitAbs _ _ => 0x2C
  | .andAbs _ _ => 0x2D
  | .rolAbs _ _ => 0x2E
  | .rlaAbs _ _ => 0x2F
  | .bmiRel _ => 0x30
  | .andIzy _ => 0x31
  | .jam32 => 0x32
  | .rlaIzy _ => 0x33
  | .nopZpx34 _ => 0x34
  | .andZpx _ => 0x35
  | .rolZpx _ => 0x36
  | .rlaZpx _ => 0x37
  | .sec => 0x38
  | .andAby _ _ => 0x39
  | .nop3A => 0x3A
  | .rlaAby _ _ => 0x3B
  | .nopAbx3C _ _ => 0x3C
  | .andAbx _ _ => 0x3D
  | .rolAbx _ _ => 0x3E
  | .rlaAbx _ _ => 0x3F
  | .rti => 0x40
  | .eorIzx _ => 0x41
  | .jam42 => 0x42
  | .sreIzx _ => 0x43
  | .nopZp44 _ => 0x44
  | .eorZp _ => 0x45
  | .lsrZp _ => 0x46
  | .sreZp _ => 0x47
  | .pha => 0x48
  | .eorImm _ => 0x49
  | .lsrAcc => 0x4A
  | .alrImm _ => 0x4B
  | .jmpAbs _ _ => 0x4C
  | .eorAbs _ _ => 0x4D
  | .lsrAbs _ _ => 0x4E
  | .sreAbs _ _ => 0x4F
  | .bvcRel _ => 0x50
  | .eorIzy _ => 0x51
  | .jam52 => 0x52
  | .sreIzy _ => 0x53
  | .nopZpx54 _ => 0x54
  | .eorZpx _ => 0x55
  | .lsrZpx _ => 0x56
  | .sreZpx _ => 0x57
  | .cli => 0x58
  | .eorAby _ _ => 0x59
  | .nop5A => 0x5A
  | .sreAby _ _ => 0x5B
  | .nopAbx5C _ _ => 0x5C
  | .eorAbx _ _ => 0x5D
  | .lsrAbx _ _ => 0x5E
  | .sreAbx _ _ => 0x5F
  | .rts => 0x60
  | .adcIzx _ => 0x61
  | .jam62 => 0x62
  | .rraIzx _ => 0x63
  | .nopZp64 _ => 0x64
  | .adcZp _ => 0x65
  | .rorZp _ => 0x66
  | .rraZp _ => 0x67
  | .pla => 0x68
  | .adcImm _ => 0x69
  | .rorAcc => 0x6A
  | .arrImm _ => 0x6B
  | .jmpInd _ _ => 0x6C
  | .adcAbs _ _ => 0x6D
  | .rorAbs _ _ => 0x6E
  | .rraAbs _ _ => 0x6F
  | .bvsRel _ => 0x70
  | .adcIzy _ => 0x71
  | .jam72 => 0x72
  | .rraIzy _ => 0x73
  | .nopZpx74 _ => 0x74
  | .adcZpx _ => 0x75
  | .rorZpx _ => 0x76
  | .rraZpx _ => 0x77
  | .sei => 0x78
  | .adcAby _ _ => 0x79
  | .nop7A => 0x7A
  | .rraAby _ _ => 0x7B
  | .nopAbx7C _ _ => 0x7C
  | .adcAbx _ _ => 0x7D
  | .rorAbx _ _ => 0x7E
  | .rraAbx _ _ => 0x7F
  | .nopImm80 _ => 0x80
  | .staIzx _ => 0x81
  | .nopImm82 _ => 0x82
  | .saxIzx _ => 0x83
  | .styZp _ => 0x84
  | .staZp _ => 0x85
  | .stxZp _ => 0x86
  | .saxZp _ => 0x87
  | .dey => 0x88
  | .nopImm89 _ => 0x89
  | .txa => 0x8A
  | .aneImm _ => 0x8B
  | .styAbs _ _ => 0x8C
  | .staAbs _ _ => 0x8D
  | .stxAbs _ _ => 0x8E
  | .saxAbs _ _ => 0x8F
  | .bccRel _ => 0x90
  | .staIzy _ => 0x91
  | .jam92 => 0x92
  | .shaIzy _ => 0x93
  | .styZpx _ => 0x94
  | .staZpx _ => 0x95
  | .stxZpy _ => 0x96
  | .saxZpy _ => 0x97
  | .tya => 0x98
  | .staAby _ _ => 0x99
  | .txs => 0x9A
  | .tasAby _ _ => 0x9B
  | .shyAbx _ _ => 0x9C
  | .staAbx _ _ => 0x9D
  | .shxAby _ _ => 0x9E
  | .shaAby _ _ => 0x9F
  | .ldyImm _ => 0xA0
  | .ldaIzx _ => 0xA1
  | .ldxImm _ => 0xA2
  | .laxIzx _ => 0xA3
  | .ldyZp _ => 0xA4
  | .ldaZp _ => 0xA5
  | .ldxZp _ => 0xA6
  | .laxZp _ => 0xA7
  | .tay => 0xA8
  | .ldaImm _ => 0xA9
  | .tax => 0xAA
  | .lxaImm _ => 0xAB
  | .ldyAbs _ _ => 0xAC
  | .ldaAbs _ _ => 0xAD
  | .ldxAbs _ _ => 0xAE
  | .laxAbs _ _ => 0xAF
  | .bcsRel _ => 0xB0
  | .ldaIzy _ => 0xB1
  | .jamB2 => 0xB2
  | .laxIzy _ => 0xB3
  | .ldyZpx _ => 0xB4
  | .ldaZpx _ => 0xB5
  | .ldxZpy _ => 0xB6
  | .laxZpy _ => 0xB7
  | .clv => 0xB8
  | .ldaAby _ _ => 0xB9
  | .tsx => 0xBA
  | .lasAby _ _ => 0xBB
  | .ldyAbx _ _ => 0xBC
  | .ldaAbx _ _ => 0xBD
  | .ldxAby _ _ => 0xBE
  | .laxAby _ _ => 0xBF
  | .cpyImm _ => 0xC0
  | .cmpIzx _ => 0xC1
  | .nopImmC2 _ => 0xC2
  | .dcpIzx _ => 0xC3
  | .cpyZp _ => 0xC4
  | .cmpZp _ => 0xC5
  | .decZp _ => 0xC6
  | .dcpZp _ => 0xC7
  | .iny => 0xC8
  | .cmpImm _ => 0xC9
  | .dex => 0xCA
  | .sbxImm _ => 0xCB
  | .cpyAbs _ _ => 0xCC
  | .cmpAbs _ _ => 0xCD
  | .decAbs _ _ => 0xCE
  | .dcpAbs _ _ => 0xCF
  | .bneRel _ => 0xD0
  | .cmpIzy _ => 0xD1
  | .jamD2 => 0xD2
  | .dcpIzy _ => 0xD3
  | .nopZpxD4 _ => 0xD4
  | .cmpZpx _ => 0xD5
  | .decZpx _ => 0xD6
  | .dcpZpx _ => 0xD7
  | .cld => 0xD8
  | .cmpAby _ _ => 0xD9
  | .nopDA => 0xDA
  | .dcpAby _ _ => 0xDB
  | .nopAbxDC _ _ => 0xDC
  | .cmpAbx _ _ => 0xDD
  | .decAbx _ _ => 0xDE
  | .dcpAbx _ _ => 0xDF
  | .cpxImm _ => 0xE0
  | .sbcIzx _ => 0xE1
  | .nopImmE2 _ => 0xE2
  | .iscIzx _ => 0xE3
  | .cpxZp _ => 0xE4
  | .sbcZp _ => 0xE5
  | .incZp _ => 0xE6
  | .iscZp _ => 0xE7
  | .inx => 0xE8
  | .sbcImm _ => 0xE9
  | .nop => 0xEA
  | .usbcImm _ => 0xEB
  | .cpxAbs _ _ => 0xEC
  | .sbcAbs _ _ => 0xED
  | .incAbs _ _ => 0xEE
  | .iscAbs _ _ => 0xEF
  | .beqRel _ => 0xF0
  | .sbcIzy _ => 0xF1
  | .jamF2 => 0xF2
  | .iscIzy _ => 0xF3
  | .nopZpxF4 _ => 0xF4
  | .sbcZpx _ => 0xF5
  | .incZpx _ => 0xF6
  | .iscZpx _ => 0xF7
  | .sed => 0xF8
  | .sbcAby _ _ => 0xF9
  | .nopFA => 0xFA
  | .iscAby _ _ => 0xFB
  | .nopAbxFC _ _ => 0xFC
  | .sbcAbx _ _ => 0xFD
  | .incAbx _ _ => 0xFE
  | .iscAbx _ _ => 0xFF

/-- The length of an instruction in bytes (R280). -/
def Instr.length (i : Instr) : Nat := i.mode.length

end Sys2Proof
end

