-- ==== Sys2Proof/WellFormed.lean ====
section
/-! DEFINITION. The check an instruction must pass to have a meaning: its opcode is one the spec admits
(30_encoding.md R286, R287).  Operand bytes need no check: "any value is legal in every operand byte of an admitted
opcode" (R288). -/

namespace Sys2Proof

/-- The 12 JAM opcodes (R287, R520). -/
def jamOpcodes : List Byte := [0x02, 0x12, 0x22, 0x32, 0x42, 0x52, 0x62, 0x72, 0x92, 0xB2, 0xD2, 0xF2]

/-- The 27 undocumented NOP opcodes (R287, R521). -/
def nopOpcodes : List Byte :=
  [0x04, 0x0C, 0x14, 0x1A, 0x1C, 0x34, 0x3A, 0x3C, 0x44, 0x54, 0x5A, 0x5C, 0x64, 0x74]
    ++ [0x7A, 0x7C, 0x80, 0x82, 0x89, 0xC2, 0xD4, 0xDA, 0xDC, 0xE2, 0xF4, 0xFA, 0xFC]

/-- The 9 other refused opcodes (R287, R522). -/
def unstableOpcodes : List Byte := [0x8B, 0x93, 0x9B, 0x9C, 0x9E, 0x9F, 0xAB, 0xBB, 0xEB]

/-- The 48 opcodes the spec refuses (R287). -/
def refusedOpcodes : List Byte := jamOpcodes ++ nopOpcodes ++ unstableOpcodes

/-- The opcode is one of the 208 the spec admits (R284, R286). -/
def admittedOpcode (op : Byte) : Bool := !refusedOpcodes.contains op

/-- An instruction is well formed when its opcode is admitted. -/
def WellFormed (i : Instr) : Bool := admittedOpcode i.opcode

end Sys2Proof
end

