-- ==== Sys2Proof/Decode.lean ====
section
/-! DEFINITION. Decoding, total on every byte (30_encoding.md R280..R285), and the encoder written from the same map. -/

namespace Sys2Proof

/-- Why a byte sequence is not an instruction. -/
inductive DecodeError where
  /-- There is no opcode byte. -/
  | noOpcode
  /-- The opcode needs more operand bytes than there are (R280). -/
  | truncated (opcode : Byte)
deriving DecidableEq, Repr

/-- Row 0x of the opcode map (R284): `lo` is the low digit of the opcode. -/
def decodeRow0 (lo : Nat) (b1 b2 : Byte) : Instr :=
  match lo with
  | 0 => .brk
  | 1 => .oraIzx b1
  | 2 => .jam02
  | 3 => .sloIzx b1
  | 4 => .nopZp04 b1
  | 5 => .oraZp b1
  | 6 => .aslZp b1
  | 7 => .sloZp b1
  | 8 => .php
  | 9 => .oraImm b1
  | 10 => .aslAcc
  | 11 => .ancImm0B b1
  | 12 => .nopAbs0C b1 b2
  | 13 => .oraAbs b1 b2
  | 14 => .aslAbs b1 b2
  | _ => .sloAbs b1 b2

/-- Row 1x of the opcode map (R284): `lo` is the low digit of the opcode. -/
def decodeRow1 (lo : Nat) (b1 b2 : Byte) : Instr :=
  match lo with
  | 0 => .bplRel b1
  | 1 => .oraIzy b1
  | 2 => .jam12
  | 3 => .sloIzy b1
  | 4 => .nopZpx14 b1
  | 5 => .oraZpx b1
  | 6 => .aslZpx b1
  | 7 => .sloZpx b1
  | 8 => .clc
  | 9 => .oraAby b1 b2
  | 10 => .nop1A
  | 11 => .sloAby b1 b2
  | 12 => .nopAbx1C b1 b2
  | 13 => .oraAbx b1 b2
  | 14 => .aslAbx b1 b2
  | _ => .sloAbx b1 b2

/-- Row 2x of the opcode map (R284): `lo` is the low digit of the opcode. -/
def decodeRow2 (lo : Nat) (b1 b2 : Byte) : Instr :=
  match lo with
  | 0 => .jsrAbs b1 b2
  | 1 => .andIzx b1
  | 2 => .jam22
  | 3 => .rlaIzx b1
  | 4 => .bitZp b1
  | 5 => .andZp b1
  | 6 => .rolZp b1
  | 7 => .rlaZp b1
  | 8 => .plp
  | 9 => .andImm b1
  | 10 => .rolAcc
  | 11 => .ancImm2B b1
  | 12 => .bitAbs b1 b2
  | 13 => .andAbs b1 b2
  | 14 => .rolAbs b1 b2
  | _ => .rlaAbs b1 b2

/-- Row 3x of the opcode map (R284): `lo` is the low digit of the opcode. -/
def decodeRow3 (lo : Nat) (b1 b2 : Byte) : Instr :=
  match lo with
  | 0 => .bmiRel b1
  | 1 => .andIzy b1
  | 2 => .jam32
  | 3 => .rlaIzy b1
  | 4 => .nopZpx34 b1
  | 5 => .andZpx b1
  | 6 => .rolZpx b1
  | 7 => .rlaZpx b1
  | 8 => .sec
  | 9 => .andAby b1 b2
  | 10 => .nop3A
  | 11 => .rlaAby b1 b2
  | 12 => .nopAbx3C b1 b2
  | 13 => .andAbx b1 b2
  | 14 => .rolAbx b1 b2
  | _ => .rlaAbx b1 b2

/-- Row 4x of the opcode map (R284): `lo` is the low digit of the opcode. -/
def decodeRow4 (lo : Nat) (b1 b2 : Byte) : Instr :=
  match lo with
  | 0 => .rti
  | 1 => .eorIzx b1
  | 2 => .jam42
  | 3 => .sreIzx b1
  | 4 => .nopZp44 b1
  | 5 => .eorZp b1
  | 6 => .lsrZp b1
  | 7 => .sreZp b1
  | 8 => .pha
  | 9 => .eorImm b1
  | 10 => .lsrAcc
  | 11 => .alrImm b1
  | 12 => .jmpAbs b1 b2
  | 13 => .eorAbs b1 b2
  | 14 => .lsrAbs b1 b2
  | _ => .sreAbs b1 b2

/-- Row 5x of the opcode map (R284): `lo` is the low digit of the opcode. -/
def decodeRow5 (lo : Nat) (b1 b2 : Byte) : Instr :=
  match lo with
  | 0 => .bvcRel b1
  | 1 => .eorIzy b1
  | 2 => .jam52
  | 3 => .sreIzy b1
  | 4 => .nopZpx54 b1
  | 5 => .eorZpx b1
  | 6 => .lsrZpx b1
  | 7 => .sreZpx b1
  | 8 => .cli
  | 9 => .eorAby b1 b2
  | 10 => .nop5A
  | 11 => .sreAby b1 b2
  | 12 => .nopAbx5C b1 b2
  | 13 => .eorAbx b1 b2
  | 14 => .lsrAbx b1 b2
  | _ => .sreAbx b1 b2

/-- Row 6x of the opcode map (R284): `lo` is the low digit of the opcode. -/
def decodeRow6 (lo : Nat) (b1 b2 : Byte) : Instr :=
  match lo with
  | 0 => .rts
  | 1 => .adcIzx b1
  | 2 => .jam62
  | 3 => .rraIzx b1
  | 4 => .nopZp64 b1
  | 5 => .adcZp b1
  | 6 => .rorZp b1
  | 7 => .rraZp b1
  | 8 => .pla
  | 9 => .adcImm b1
  | 10 => .rorAcc
  | 11 => .arrImm b1
  | 12 => .jmpInd b1 b2
  | 13 => .adcAbs b1 b2
  | 14 => .rorAbs b1 b2
  | _ => .rraAbs b1 b2

/-- Row 7x of the opcode map (R284): `lo` is the low digit of the opcode. -/
def decodeRow7 (lo : Nat) (b1 b2 : Byte) : Instr :=
  match lo with
  | 0 => .bvsRel b1
  | 1 => .adcIzy b1
  | 2 => .jam72
  | 3 => .rraIzy b1
  | 4 => .nopZpx74 b1
  | 5 => .adcZpx b1
  | 6 => .rorZpx b1
  | 7 => .rraZpx b1
  | 8 => .sei
  | 9 => .adcAby b1 b2
  | 10 => .nop7A
  | 11 => .rraAby b1 b2
  | 12 => .nopAbx7C b1 b2
  | 13 => .adcAbx b1 b2
  | 14 => .rorAbx b1 b2
  | _ => .rraAbx b1 b2

/-- Row 8x of the opcode map (R284): `lo` is the low digit of the opcode. -/
def decodeRow8 (lo : Nat) (b1 b2 : Byte) : Instr :=
  match lo with
  | 0 => .nopImm80 b1
  | 1 => .staIzx b1
  | 2 => .nopImm82 b1
  | 3 => .saxIzx b1
  | 4 => .styZp b1
  | 5 => .staZp b1
  | 6 => .stxZp b1
  | 7 => .saxZp b1
  | 8 => .dey
  | 9 => .nopImm89 b1
  | 10 => .txa
  | 11 => .aneImm b1
  | 12 => .styAbs b1 b2
  | 13 => .staAbs b1 b2
  | 14 => .stxAbs b1 b2
  | _ => .saxAbs b1 b2

/-- Row 9x of the opcode map (R284): `lo` is the low digit of the opcode. -/
def decodeRow9 (lo : Nat) (b1 b2 : Byte) : Instr :=
  match lo with
  | 0 => .bccRel b1
  | 1 => .staIzy b1
  | 2 => .jam92
  | 3 => .shaIzy b1
  | 4 => .styZpx b1
  | 5 => .staZpx b1
  | 6 => .stxZpy b1
  | 7 => .saxZpy b1
  | 8 => .tya
  | 9 => .staAby b1 b2
  | 10 => .txs
  | 11 => .tasAby b1 b2
  | 12 => .shyAbx b1 b2
  | 13 => .staAbx b1 b2
  | 14 => .shxAby b1 b2
  | _ => .shaAby b1 b2

/-- Row Ax of the opcode map (R284): `lo` is the low digit of the opcode. -/
def decodeRowA (lo : Nat) (b1 b2 : Byte) : Instr :=
  match lo with
  | 0 => .ldyImm b1
  | 1 => .ldaIzx b1
  | 2 => .ldxImm b1
  | 3 => .laxIzx b1
  | 4 => .ldyZp b1
  | 5 => .ldaZp b1
  | 6 => .ldxZp b1
  | 7 => .laxZp b1
  | 8 => .tay
  | 9 => .ldaImm b1
  | 10 => .tax
  | 11 => .lxaImm b1
  | 12 => .ldyAbs b1 b2
  | 13 => .ldaAbs b1 b2
  | 14 => .ldxAbs b1 b2
  | _ => .laxAbs b1 b2

/-- Row Bx of the opcode map (R284): `lo` is the low digit of the opcode. -/
def decodeRowB (lo : Nat) (b1 b2 : Byte) : Instr :=
  match lo with
  | 0 => .bcsRel b1
  | 1 => .ldaIzy b1
  | 2 => .jamB2
  | 3 => .laxIzy b1
  | 4 => .ldyZpx b1
  | 5 => .ldaZpx b1
  | 6 => .ldxZpy b1
  | 7 => .laxZpy b1
  | 8 => .clv
  | 9 => .ldaAby b1 b2
  | 10 => .tsx
  | 11 => .lasAby b1 b2
  | 12 => .ldyAbx b1 b2
  | 13 => .ldaAbx b1 b2
  | 14 => .ldxAby b1 b2
  | _ => .laxAby b1 b2

/-- Row Cx of the opcode map (R284): `lo` is the low digit of the opcode. -/
def decodeRowC (lo : Nat) (b1 b2 : Byte) : Instr :=
  match lo with
  | 0 => .cpyImm b1
  | 1 => .cmpIzx b1
  | 2 => .nopImmC2 b1
  | 3 => .dcpIzx b1
  | 4 => .cpyZp b1
  | 5 => .cmpZp b1
  | 6 => .decZp b1
  | 7 => .dcpZp b1
  | 8 => .iny
  | 9 => .cmpImm b1
  | 10 => .dex
  | 11 => .sbxImm b1
  | 12 => .cpyAbs b1 b2
  | 13 => .cmpAbs b1 b2
  | 14 => .decAbs b1 b2
  | _ => .dcpAbs b1 b2

/-- Row Dx of the opcode map (R284): `lo` is the low digit of the opcode. -/
def decodeRowD (lo : Nat) (b1 b2 : Byte) : Instr :=
  match lo with
  | 0 => .bneRel b1
  | 1 => .cmpIzy b1
  | 2 => .jamD2
  | 3 => .dcpIzy b1
  | 4 => .nopZpxD4 b1
  | 5 => .cmpZpx b1
  | 6 => .decZpx b1
  | 7 => .dcpZpx b1
  | 8 => .cld
  | 9 => .cmpAby b1 b2
  | 10 => .nopDA
  | 11 => .dcpAby b1 b2
  | 12 => .nopAbxDC b1 b2
  | 13 => .cmpAbx b1 b2
  | 14 => .decAbx b1 b2
  | _ => .dcpAbx b1 b2

/-- Row Ex of the opcode map (R284): `lo` is the low digit of the opcode. -/
def decodeRowE (lo : Nat) (b1 b2 : Byte) : Instr :=
  match lo with
  | 0 => .cpxImm b1
  | 1 => .sbcIzx b1
  | 2 => .nopImmE2 b1
  | 3 => .iscIzx b1
  | 4 => .cpxZp b1
  | 5 => .sbcZp b1
  | 6 => .incZp b1
  | 7 => .iscZp b1
  | 8 => .inx
  | 9 => .sbcImm b1
  | 10 => .nop
  | 11 => .usbcImm b1
  | 12 => .cpxAbs b1 b2
  | 13 => .sbcAbs b1 b2
  | 14 => .incAbs b1 b2
  | _ => .iscAbs b1 b2

/-- Row Fx of the opcode map (R284): `lo` is the low digit of the opcode. -/
def decodeRowF (lo : Nat) (b1 b2 : Byte) : Instr :=
  match lo with
  | 0 => .beqRel b1
  | 1 => .sbcIzy b1
  | 2 => .jamF2
  | 3 => .iscIzy b1
  | 4 => .nopZpxF4 b1
  | 5 => .sbcZpx b1
  | 6 => .incZpx b1
  | 7 => .iscZpx b1
  | 8 => .sed
  | 9 => .sbcAby b1 b2
  | 10 => .nopFA
  | 11 => .iscAby b1 b2
  | 12 => .nopAbxFC b1 b2
  | 13 => .sbcAbx b1 b2
  | 14 => .incAbx b1 b2
  | _ => .iscAbx b1 b2

/-- The instruction of an opcode and the two bytes after it; a shorter instruction ignores the bytes past its end
(R280, R285). -/
def decodeParts (op b1 b2 : Byte) : Instr :=
  match op.toNat / 16 with
  | 0 => decodeRow0 (op.toNat % 16) b1 b2
  | 1 => decodeRow1 (op.toNat % 16) b1 b2
  | 2 => decodeRow2 (op.toNat % 16) b1 b2
  | 3 => decodeRow3 (op.toNat % 16) b1 b2
  | 4 => decodeRow4 (op.toNat % 16) b1 b2
  | 5 => decodeRow5 (op.toNat % 16) b1 b2
  | 6 => decodeRow6 (op.toNat % 16) b1 b2
  | 7 => decodeRow7 (op.toNat % 16) b1 b2
  | 8 => decodeRow8 (op.toNat % 16) b1 b2
  | 9 => decodeRow9 (op.toNat % 16) b1 b2
  | 10 => decodeRowA (op.toNat % 16) b1 b2
  | 11 => decodeRowB (op.toNat % 16) b1 b2
  | 12 => decodeRowC (op.toNat % 16) b1 b2
  | 13 => decodeRowD (op.toNat % 16) b1 b2
  | 14 => decodeRowE (op.toNat % 16) b1 b2
  | _ => decodeRowF (op.toNat % 16) b1 b2

/-- The length of the instruction an opcode begins (R280): the opcode byte alone fixes it. -/
def opcodeLength (op : Byte) : Nat := (decodeParts op 0 0).length

/-- The decoder: the first instruction of a byte sequence, and the bytes after it. -/
def decode : List Byte → Except DecodeError (Instr × List Byte)
  | [] => .error .noOpcode
  | op :: rest =>
    match opcodeLength op, rest with
    | 1, rest => .ok (decodeParts op 0 0, rest)
    | 2, b1 :: rest => .ok (decodeParts op b1 0, rest)
    | 3, b1 :: b2 :: rest => .ok (decodeParts op b1 b2, rest)
    | _, _ => .error (.truncated op)

/-- The instruction that an opcode-table word stands for: bit 0 of `w` is bit 0 of the opcode byte, bits 15..8 are the
second byte and bits 23..16 the third; bits above `nbits` are 0. -/
def decodeTableWord (nbits w : Nat) : Option Instr :=
  let v := w % 2 ^ nbits
  match decode [BitVec.ofNat 8 v, BitVec.ofNat 8 (v / 256), BitVec.ofNat 8 (v / 65536)] with
  | .ok (i, _) => some i
  | .error _ => none

/-- The bytes of an instruction (R281, R284): the opcode, then its operand bytes at rising addresses. -/
def encode : Instr → List Byte
  | .brk => [0x00]
  | .oraIzx zp => [0x01, zp]
  | .jam02 => [0x02]
  | .sloIzx zp => [0x03, zp]
  | .nopZp04 zp => [0x04, zp]
  | .oraZp zp => [0x05, zp]
  | .aslZp zp => [0x06, zp]
  | .sloZp zp => [0x07, zp]
  | .php => [0x08]
  | .oraImm imm => [0x09, imm]
  | .aslAcc => [0x0A]
  | .ancImm0B imm => [0x0B, imm]
  | .nopAbs0C lo hi => [0x0C, lo, hi]
  | .oraAbs lo hi => [0x0D, lo, hi]
  | .aslAbs lo hi => [0x0E, lo, hi]
  | .sloAbs lo hi => [0x0F, lo, hi]
  | .bplRel off => [0x10, off]
  | .oraIzy zp => [0x11, zp]
  | .jam12 => [0x12]
  | .sloIzy zp => [0x13, zp]
  | .nopZpx14 zp => [0x14, zp]
  | .oraZpx zp => [0x15, zp]
  | .aslZpx zp => [0x16, zp]
  | .sloZpx zp => [0x17, zp]
  | .clc => [0x18]
  | .oraAby lo hi => [0x19, lo, hi]
  | .nop1A => [0x1A]
  | .sloAby lo hi => [0x1B, lo, hi]
  | .nopAbx1C lo hi => [0x1C, lo, hi]
  | .oraAbx lo hi => [0x1D, lo, hi]
  | .aslAbx lo hi => [0x1E, lo, hi]
  | .sloAbx lo hi => [0x1F, lo, hi]
  | .jsrAbs lo hi => [0x20, lo, hi]
  | .andIzx zp => [0x21, zp]
  | .jam22 => [0x22]
  | .rlaIzx zp => [0x23, zp]
  | .bitZp zp => [0x24, zp]
  | .andZp zp => [0x25, zp]
  | .rolZp zp => [0x26, zp]
  | .rlaZp zp => [0x27, zp]
  | .plp => [0x28]
  | .andImm imm => [0x29, imm]
  | .rolAcc => [0x2A]
  | .ancImm2B imm => [0x2B, imm]
  | .bitAbs lo hi => [0x2C, lo, hi]
  | .andAbs lo hi => [0x2D, lo, hi]
  | .rolAbs lo hi => [0x2E, lo, hi]
  | .rlaAbs lo hi => [0x2F, lo, hi]
  | .bmiRel off => [0x30, off]
  | .andIzy zp => [0x31, zp]
  | .jam32 => [0x32]
  | .rlaIzy zp => [0x33, zp]
  | .nopZpx34 zp => [0x34, zp]
  | .andZpx zp => [0x35, zp]
  | .rolZpx zp => [0x36, zp]
  | .rlaZpx zp => [0x37, zp]
  | .sec => [0x38]
  | .andAby lo hi => [0x39, lo, hi]
  | .nop3A => [0x3A]
  | .rlaAby lo hi => [0x3B, lo, hi]
  | .nopAbx3C lo hi => [0x3C, lo, hi]
  | .andAbx lo hi => [0x3D, lo, hi]
  | .rolAbx lo hi => [0x3E, lo, hi]
  | .rlaAbx lo hi => [0x3F, lo, hi]
  | .rti => [0x40]
  | .eorIzx zp => [0x41, zp]
  | .jam42 => [0x42]
  | .sreIzx zp => [0x43, zp]
  | .nopZp44 zp => [0x44, zp]
  | .eorZp zp => [0x45, zp]
  | .lsrZp zp => [0x46, zp]
  | .sreZp zp => [0x47, zp]
  | .pha => [0x48]
  | .eorImm imm => [0x49, imm]
  | .lsrAcc => [0x4A]
  | .alrImm imm => [0x4B, imm]
  | .jmpAbs lo hi => [0x4C, lo, hi]
  | .eorAbs lo hi => [0x4D, lo, hi]
  | .lsrAbs lo hi => [0x4E, lo, hi]
  | .sreAbs lo hi => [0x4F, lo, hi]
  | .bvcRel off => [0x50, off]
  | .eorIzy zp => [0x51, zp]
  | .jam52 => [0x52]
  | .sreIzy zp => [0x53, zp]
  | .nopZpx54 zp => [0x54, zp]
  | .eorZpx zp => [0x55, zp]
  | .lsrZpx zp => [0x56, zp]
  | .sreZpx zp => [0x57, zp]
  | .cli => [0x58]
  | .eorAby lo hi => [0x59, lo, hi]
  | .nop5A => [0x5A]
  | .sreAby lo hi => [0x5B, lo, hi]
  | .nopAbx5C lo hi => [0x5C, lo, hi]
  | .eorAbx lo hi => [0x5D, lo, hi]
  | .lsrAbx lo hi => [0x5E, lo, hi]
  | .sreAbx lo hi => [0x5F, lo, hi]
  | .rts => [0x60]
  | .adcIzx zp => [0x61, zp]
  | .jam62 => [0x62]
  | .rraIzx zp => [0x63, zp]
  | .nopZp64 zp => [0x64, zp]
  | .adcZp zp => [0x65, zp]
  | .rorZp zp => [0x66, zp]
  | .rraZp zp => [0x67, zp]
  | .pla => [0x68]
  | .adcImm imm => [0x69, imm]
  | .rorAcc => [0x6A]
  | .arrImm imm => [0x6B, imm]
  | .jmpInd lo hi => [0x6C, lo, hi]
  | .adcAbs lo hi => [0x6D, lo, hi]
  | .rorAbs lo hi => [0x6E, lo, hi]
  | .rraAbs lo hi => [0x6F, lo, hi]
  | .bvsRel off => [0x70, off]
  | .adcIzy zp => [0x71, zp]
  | .jam72 => [0x72]
  | .rraIzy zp => [0x73, zp]
  | .nopZpx74 zp => [0x74, zp]
  | .adcZpx zp => [0x75, zp]
  | .rorZpx zp => [0x76, zp]
  | .rraZpx zp => [0x77, zp]
  | .sei => [0x78]
  | .adcAby lo hi => [0x79, lo, hi]
  | .nop7A => [0x7A]
  | .rraAby lo hi => [0x7B, lo, hi]
  | .nopAbx7C lo hi => [0x7C, lo, hi]
  | .adcAbx lo hi => [0x7D, lo, hi]
  | .rorAbx lo hi => [0x7E, lo, hi]
  | .rraAbx lo hi => [0x7F, lo, hi]
  | .nopImm80 imm => [0x80, imm]
  | .staIzx zp => [0x81, zp]
  | .nopImm82 imm => [0x82, imm]
  | .saxIzx zp => [0x83, zp]
  | .styZp zp => [0x84, zp]
  | .staZp zp => [0x85, zp]
  | .stxZp zp => [0x86, zp]
  | .saxZp zp => [0x87, zp]
  | .dey => [0x88]
  | .nopImm89 imm => [0x89, imm]
  | .txa => [0x8A]
  | .aneImm imm => [0x8B, imm]
  | .styAbs lo hi => [0x8C, lo, hi]
  | .staAbs lo hi => [0x8D, lo, hi]
  | .stxAbs lo hi => [0x8E, lo, hi]
  | .saxAbs lo hi => [0x8F, lo, hi]
  | .bccRel off => [0x90, off]
  | .staIzy zp => [0x91, zp]
  | .jam92 => [0x92]
  | .shaIzy zp => [0x93, zp]
  | .styZpx zp => [0x94, zp]
  | .staZpx zp => [0x95, zp]
  | .stxZpy zp => [0x96, zp]
  | .saxZpy zp => [0x97, zp]
  | .tya => [0x98]
  | .staAby lo hi => [0x99, lo, hi]
  | .txs => [0x9A]
  | .tasAby lo hi => [0x9B, lo, hi]
  | .shyAbx lo hi => [0x9C, lo, hi]
  | .staAbx lo hi => [0x9D, lo, hi]
  | .shxAby lo hi => [0x9E, lo, hi]
  | .shaAby lo hi => [0x9F, lo, hi]
  | .ldyImm imm => [0xA0, imm]
  | .ldaIzx zp => [0xA1, zp]
  | .ldxImm imm => [0xA2, imm]
  | .laxIzx zp => [0xA3, zp]
  | .ldyZp zp => [0xA4, zp]
  | .ldaZp zp => [0xA5, zp]
  | .ldxZp zp => [0xA6, zp]
  | .laxZp zp => [0xA7, zp]
  | .tay => [0xA8]
  | .ldaImm imm => [0xA9, imm]
  | .tax => [0xAA]
  | .lxaImm imm => [0xAB, imm]
  | .ldyAbs lo hi => [0xAC, lo, hi]
  | .ldaAbs lo hi => [0xAD, lo, hi]
  | .ldxAbs lo hi => [0xAE, lo, hi]
  | .laxAbs lo hi => [0xAF, lo, hi]
  | .bcsRel off => [0xB0, off]
  | .ldaIzy zp => [0xB1, zp]
  | .jamB2 => [0xB2]
  | .laxIzy zp => [0xB3, zp]
  | .ldyZpx zp => [0xB4, zp]
  | .ldaZpx zp => [0xB5, zp]
  | .ldxZpy zp => [0xB6, zp]
  | .laxZpy zp => [0xB7, zp]
  | .clv => [0xB8]
  | .ldaAby lo hi => [0xB9, lo, hi]
  | .tsx => [0xBA]
  | .lasAby lo hi => [0xBB, lo, hi]
  | .ldyAbx lo hi => [0xBC, lo, hi]
  | .ldaAbx lo hi => [0xBD, lo, hi]
  | .ldxAby lo hi => [0xBE, lo, hi]
  | .laxAby lo hi => [0xBF, lo, hi]
  | .cpyImm imm => [0xC0, imm]
  | .cmpIzx zp => [0xC1, zp]
  | .nopImmC2 imm => [0xC2, imm]
  | .dcpIzx zp => [0xC3, zp]
  | .cpyZp zp => [0xC4, zp]
  | .cmpZp zp => [0xC5, zp]
  | .decZp zp => [0xC6, zp]
  | .dcpZp zp => [0xC7, zp]
  | .iny => [0xC8]
  | .cmpImm imm => [0xC9, imm]
  | .dex => [0xCA]
  | .sbxImm imm => [0xCB, imm]
  | .cpyAbs lo hi => [0xCC, lo, hi]
  | .cmpAbs lo hi => [0xCD, lo, hi]
  | .decAbs lo hi => [0xCE, lo, hi]
  | .dcpAbs lo hi => [0xCF, lo, hi]
  | .bneRel off => [0xD0, off]
  | .cmpIzy zp => [0xD1, zp]
  | .jamD2 => [0xD2]
  | .dcpIzy zp => [0xD3, zp]
  | .nopZpxD4 zp => [0xD4, zp]
  | .cmpZpx zp => [0xD5, zp]
  | .decZpx zp => [0xD6, zp]
  | .dcpZpx zp => [0xD7, zp]
  | .cld => [0xD8]
  | .cmpAby lo hi => [0xD9, lo, hi]
  | .nopDA => [0xDA]
  | .dcpAby lo hi => [0xDB, lo, hi]
  | .nopAbxDC lo hi => [0xDC, lo, hi]
  | .cmpAbx lo hi => [0xDD, lo, hi]
  | .decAbx lo hi => [0xDE, lo, hi]
  | .dcpAbx lo hi => [0xDF, lo, hi]
  | .cpxImm imm => [0xE0, imm]
  | .sbcIzx zp => [0xE1, zp]
  | .nopImmE2 imm => [0xE2, imm]
  | .iscIzx zp => [0xE3, zp]
  | .cpxZp zp => [0xE4, zp]
  | .sbcZp zp => [0xE5, zp]
  | .incZp zp => [0xE6, zp]
  | .iscZp zp => [0xE7, zp]
  | .inx => [0xE8]
  | .sbcImm imm => [0xE9, imm]
  | .nop => [0xEA]
  | .usbcImm imm => [0xEB, imm]
  | .cpxAbs lo hi => [0xEC, lo, hi]
  | .sbcAbs lo hi => [0xED, lo, hi]
  | .incAbs lo hi => [0xEE, lo, hi]
  | .iscAbs lo hi => [0xEF, lo, hi]
  | .beqRel off => [0xF0, off]
  | .sbcIzy zp => [0xF1, zp]
  | .jamF2 => [0xF2]
  | .iscIzy zp => [0xF3, zp]
  | .nopZpxF4 zp => [0xF4, zp]
  | .sbcZpx zp => [0xF5, zp]
  | .incZpx zp => [0xF6, zp]
  | .iscZpx zp => [0xF7, zp]
  | .sed => [0xF8]
  | .sbcAby lo hi => [0xF9, lo, hi]
  | .nopFA => [0xFA]
  | .iscAby lo hi => [0xFB, lo, hi]
  | .nopAbxFC lo hi => [0xFC, lo, hi]
  | .sbcAbx lo hi => [0xFD, lo, hi]
  | .incAbx lo hi => [0xFE, lo, hi]
  | .iscAbx lo hi => [0xFF, lo, hi]

end Sys2Proof
end

