-- ==== Sys2Proof/Config.lean ====
section
/-! DEFINITION. What an implementation fixes (00_scope.md R11) and the values the spec leaves open.
The parameters of R11 are plain data (`Params`), carried unchanged in the state, so that a statement about
every state is a statement about every choice of them.  The `opaque` constants are the free values: the spec
gives them no value, they have no body, and nothing can be proved of what they are. -/

namespace Sys2Proof

/-- A sparse byte store: (address, byte) pairs, addresses strictly rising, no entry equal to what an unlisted
address reads as (`Memory.wf`). -/
abbrev Memory := List Host.Cell

/-- `P_MODEL` (R11). -/
inductive Model where
  | pal
  | ntsc
deriving DecidableEq, Repr

/-- The type of the mounted cartridge, `P_CART` (R11, R55). -/
inductive CartKind where
  | none
  | k8
  | k16
  | ultimax
deriving DecidableEq, Repr

/-- `P_CART`: the cartridge type and its ROML and ROMH images (offset, byte). -/
structure Cart where
  kind : CartKind
  roml : Memory
  romh : Memory
deriving DecidableEq, Repr

/-- The demand of R700 on the table `P_NTSC_XPOS` (entry `8 * (c - 1) + p` for the pixel `p` of cycle `c`): each X at
most once in the 520 pixels of a line, and `X(16 + j, 4) = $18 + 8j` for j = 0..39. -/
def xposOk (table : List Nat) : Bool :=
  decide (table.length = 520) && decide table.Nodup
    && (List.range 40).all fun j => decide (table[8 * (15 + j) + 4]? = some (0x18 + 8 * j))

/-- A value of `P_NTSC_XPOS` that R700 admits. -/
structure NtscXpos where
  table : List Nat
  ok : xposOk table = true
deriving DecidableEq, Repr

/-- The parameters of R11 that are fixed while the machine runs. -/
structure Params where
  /-- `P_MODEL`. -/
  model : Model
  /-- `P_BASIC_ROM`, by offset 0..8191. -/
  basicRom : Memory
  /-- `P_KERNAL_ROM`, by offset 0..8191. -/
  kernalRom : Memory
  /-- `P_CHAR_ROM`, by offset 0..4095. -/
  charRom : Memory
  /-- `P_CART`. -/
  cart : Cart
  /-- `P_RAM_INIT`, for RAM and colour RAM (D13). -/
  ramInit : Memory
  /-- The period in master cycles of the periodic part of `P_TOD_TICK` (D19); 0 is no periodic pulse. -/
  todPeriod : Nat
  /-- `P_SID_RATE`; a missing entry takes the default of R755. -/
  sidRates : List Nat
  /-- `P_SID_FILTER` as a table of (fc * 16 + res, (w0, q_inv)) in units of 2^-20; a missing entry takes the
  default of R765. -/
  sidFilter : List (Nat × Int × Int)
  /-- `P_NTSC_SPRITE_SLOTS`; a missing entry is `Config.ntscSpriteSlot`. -/
  ntscSlots : List Nat
  /-- `P_NTSC_XPOS`; where no table is supplied it is `Config.ntscXpos`. -/
  ntscXpos : Option NtscXpos
deriving DecidableEq, Repr

/-- Free value: `P_NTSC_SPRITE_SLOTS` where no table is supplied (R690, D32: OPEN). -/
opaque Config.ntscSpriteSlot : Nat → Nat

/-- Free value: `P_NTSC_XPOS` where no table is supplied (R700, D32: OPEN).  It is used only if R700 admits it. -/
opaque Config.ntscXpos : List Nat

/-- Free value: what the TOD divider `tod_div`, which holds 0..5 (R66), takes for the 6 that R620 stores where TODIN has
been set while it is 5 (log 6). -/
opaque Config.todDivPast : Fin 6

/-- Free value: the bits a sprite shows for a pixel index past the 24th bit of its row, which happens only when
its X expansion is switched off in the middle of the row (R695 states bits 0..23 only). -/
opaque Config.spriteOverrun : BitVec 24 → Nat → BitVec 2

end Sys2Proof
end

