-- ==== Sys2Proof/Machine/Bits.lean ====
section
/-! DEFINITION. Bit-field helpers and the eight-fold record used for the VIC's sprites and the keyboard matrix. -/

namespace Sys2Proof.Machine

/-- `v[i]` of R12 as a Bool. -/
def bit {w : Nat} (v : BitVec w) (i : Nat) : Bool := v.getLsbD i

/-- `v` with bit `i` set to `b`. -/
def putBit {w : Nat} (v : BitVec w) (i : Nat) (b : Bool) : BitVec w :=
  if b then v ||| BitVec.twoPow w i else v &&& ~~~(BitVec.twoPow w i)

/-- The number 1 or 0 of a condition (`bool` of R13). -/
def b2n (b : Bool) : Nat := if b then 1 else 0

/-- The byte whose bit `i` is `f i`. -/
def ofBits (f : Nat → Bool) : Byte :=
  BitVec.ofNat 8 (b2n (f 0) + 2 * b2n (f 1) + 4 * b2n (f 2) + 8 * b2n (f 3)
    + 16 * b2n (f 4) + 32 * b2n (f 5) + 64 * b2n (f 6) + 128 * b2n (f 7))

/-- What holds at time `t` of a list of timed changes: every change due by `t` is applied to `cur`, first one first,
and the rest of the list is still to come. -/
def dueBy {α : Type} (t : Nat) (cur : α) : List (Nat × α) → α × List (Nat × α)
  | [] => (cur, [])
  | (k, a) :: rest => if k ≤ t then dueBy t a rest else (cur, (k, a) :: rest)

/-- `∃ i < 8, f i`. -/
def any8 (f : Nat → Bool) : Bool := f 0 || f 1 || f 2 || f 3 || f 4 || f 5 || f 6 || f 7

/-- Eight like things: the sprites (R2, R10) and the keyboard columns (R11). -/
structure Oct (α : Type) where
  e0 : α
  e1 : α
  e2 : α
  e3 : α
  e4 : α
  e5 : α
  e6 : α
  e7 : α
deriving DecidableEq, Repr

/-- Eight copies of one value. -/
def Oct.fill {α : Type} (a : α) : Oct α := ⟨a, a, a, a, a, a, a, a⟩

/-- The `n`-th of the eight; indexes above 7 are never used. -/
def Oct.get {α : Type} (o : Oct α) : Nat → α
  | 0 => o.e0
  | 1 => o.e1
  | 2 => o.e2
  | 3 => o.e3
  | 4 => o.e4
  | 5 => o.e5
  | 6 => o.e6
  | _ => o.e7

/-- Replace the `n`-th of the eight. -/
def Oct.set {α : Type} (o : Oct α) (n : Nat) (a : α) : Oct α :=
  match n with
  | 0 => { o with e0 := a }
  | 1 => { o with e1 := a }
  | 2 => { o with e2 := a }
  | 3 => { o with e3 := a }
  | 4 => { o with e4 := a }
  | 5 => { o with e5 := a }
  | 6 => { o with e6 := a }
  | _ => { o with e7 := a }

/-- Apply a function that also sees the index. -/
def Oct.mapIdx {α β : Type} (f : Nat → α → β) (o : Oct α) : Oct β :=
  ⟨f 0 o.e0, f 1 o.e1, f 2 o.e2, f 3 o.e3, f 4 o.e4, f 5 o.e5, f 6 o.e6, f 7 o.e7⟩

/-- Some of the eight meets a condition that also sees the index. -/
def Oct.anyIdx {α : Type} (f : Nat → α → Bool) (o : Oct α) : Bool :=
  f 0 o.e0 || f 1 o.e1 || f 2 o.e2 || f 3 o.e3 || f 4 o.e4 || f 5 o.e5 || f 6 o.e6 || f 7 o.e7

/-- The eight as a list, first the 0th. -/
def Oct.toList {α : Type} (o : Oct α) : List α := [o.e0, o.e1, o.e2, o.e3, o.e4, o.e5, o.e6, o.e7]

end Sys2Proof.Machine
end

