-- ==== Sys2Proof/Machine/Memory.lean ====
section
/-! DEFINITION. The canonical byte store behind RAM, colour RAM and the ROM images (10_state.md R57). -/

namespace Sys2Proof.Machine

/-- What an address that nothing lists reads as.  DESIGN CHOICE (log 1): the spec leaves RAM and ROM contents to
the parameters `P_RAM_INIT`, `P_BASIC_ROM`, `P_KERNAL_ROM`, `P_CHAR_ROM`. -/
def memDefault : Byte := 0

/-- One byte read of a store. -/
def Memory.read : Memory → Nat → Byte
  | [], _ => memDefault
  | (k, v) :: rest, a => if a = k then v else if a < k then memDefault else Memory.read rest a

/-- Put an entry in front of a store, unless it is the value an unlisted address reads as anyway. -/
def Memory.keep (a : Nat) (v : Byte) (m : Memory) : Memory :=
  if v = memDefault then m else (a, v) :: m

/-- One byte write, which keeps the canonical form. -/
def Memory.write : Memory → Nat → Byte → Memory
  | [], a, v => Memory.keep a v []
  | (k, w) :: rest, a, v =>
    if a = k then Memory.keep a v rest
    else if a < k then Memory.keep a v ((k, w) :: rest)
    else (k, w) :: Memory.write rest a v

/-- Every listed address is above `a` and below `size`, strictly rising, and no entry is the default value. -/
def Memory.wfFrom (size : Nat) : Nat → Memory → Bool
  | _, [] => true
  | lo, (k, v) :: rest => decide (lo ≤ k) && decide (k < size) && (v != memDefault) && Memory.wfFrom size (k + 1) rest

/-- The canonical form of a store of `size` bytes. -/
def Memory.wf (size : Nat) (m : Memory) : Bool := Memory.wfFrom size 0 m

/-- Every byte of the store fits in 4 bits (colour RAM, R57). -/
def Memory.nibbles : Memory → Bool
  | [] => true
  | (_, v) :: rest => decide (v.toNat < 16) && Memory.nibbles rest

/-- Colour RAM at power-on and reset: "`P_RAM_INIT` low nibble" (R57), colour cell i taking the nibble of address
$D800 + i (log 2). -/
def colourInit : Memory → Memory
  | [] => []
  | (k, v) :: rest =>
    if 0xD800 ≤ k ∧ k < 0xDC00 then Memory.keep (k - 0xD800) (v &&& 0x0F) (colourInit rest) else colourInit rest

/-- A list of bytes written at consecutive addresses, the first at `a` (64_clock_bus.md R806). -/
def Memory.load (m : Memory) (a : Nat) : List Byte → Memory
  | [] => m
  | b :: rest => Memory.load (Memory.write m a b) (a + 1) rest

end Sys2Proof.Machine
end

