-- ==== Sys2Proof/Machine/State.lean ====
section
/-! DEFINITION. The whole state of the core (10_state.md), as plain data, and the state at power-on
(70_reset_and_hazards.md R820, R821). -/

namespace Sys2Proof.Machine

/-- The stored flags of P (R44); bits 5 and 4 have no storage. -/
structure Flags where
  n : Bool
  v : Bool
  d : Bool
  i : Bool
  z : Bool
  c : Bool
deriving DecidableEq, Repr

/-- The CPU registers (R40..R44). -/
structure Regs where
  a : Byte
  x : Byte
  y : Byte
  s : Byte
  pc : Word
  p : Flags
deriving DecidableEq, Repr

/-- The flags at reset (R44, R571): only I is set. -/
def Flags.reset : Flags := ⟨false, false, false, true, false, false⟩

/-- The registers at reset (R571, D2); PC is not a register that reset clears. -/
def Regs.reset (pc : Word) : Regs := ⟨0, 0, 0, 0, pc, Flags.reset⟩

/-- One interrupt sample (R551): an NMI edge is latched; IRQ is low and I is clear. -/
structure Poll where
  nmi : Bool
  irq : Bool
deriving DecidableEq, Repr

/-- What the CPU is in the middle of: nothing, an instruction, or one of the sequences of R552. -/
inductive Seq where
  | boundary
  | instruction
  | nmi
  | irq
  | reset
deriving DecidableEq, Repr

/-- `micro` (R47): what is being executed, the registers it began with, and the byte that each of its bus cycles so
far has moved, first one first.  Those bytes are its latches: the opcode, the operand bytes, a pointer, the operand of
a read-modify-write. -/
structure Micro where
  seq : Seq
  start : Regs
  moved : List Byte
deriving DecidableEq, Repr

/-- The opcode being executed, once it has been fetched (R47). -/
def Micro.opcode (m : Micro) : Option Byte := if m.seq = .instruction then m.moved.head? else none

/-- The bus cycles made so far, 0 at a boundary (R47). -/
def Micro.cycle (m : Micro) : Nat := m.moved.length

/-- The first operand byte, once it has been fetched (R47). -/
def Micro.b1 (m : Micro) : Option Byte := if m.seq = .instruction then m.moved[1]? else none

/-- The second operand byte, once it has been fetched (R47). -/
def Micro.b2 (m : Micro) : Option Byte := if m.seq = .instruction then m.moved[2]? else none

/-- The position of an instruction boundary (R47). -/
def Micro.boundary : Micro := ⟨.boundary, Regs.reset 0, []⟩

/-- The hidden CPU state (R47) and the edge detector of CPU-RESET (R821). -/
structure Latches where
  nmiEdge : Bool
  /-- NMI level at the previous master cycle; true is high. -/
  nmiPrev : Bool
  irqPending : Bool
  takeNmi : Bool
  takeIrq : Bool
  resetPending : Bool
  stalled : Bool
  /-- CPU-RESET level at the previous master cycle; true is high. -/
  resetPrev : Bool
  /-- The sample of the latest bus cycle of the current instruction (R551). -/
  poll1 : Poll
  /-- The sample of the bus cycle before it. -/
  poll2 : Poll
  micro : Micro
deriving DecidableEq, Repr

/-- The processor port registers (R49). -/
structure Port where
  ddr : Byte
  data : Byte
deriving DecidableEq, Repr

/-- A CIA timer (R66). -/
structure Timer where
  counter : Word
  latch : Word
  loadDelay : Bool
  started : Bool
  out : Bool
deriving DecidableEq, Repr

/-- The four BCD registers of the clock or of the alarm (R64). -/
structure Tod where
  tenths : Byte
  sec : Byte
  min : Byte
  hr : Byte
deriving DecidableEq, Repr

/-- One CIA 6526 (R60..R66). -/
structure Cia where
  pra : Byte
  prb : Byte
  ddra : Byte
  ddrb : Byte
  ta : Timer
  tb : Timer
  cra : Byte
  crb : Byte
  tod : Tod
  alarm : Tod
  /-- `tod_latch` with its valid bit: `none` is invalid. -/
  todLatch : Option Tod
  todStopped : Bool
  todDiv : Fin 6
  sdr : Byte
  sdrShift : Byte
  sdrBits : BitVec 4
  sdrPending : Bool
  sdrPhase : Bool
  spOut : Bool
  cntOut : Bool
  cntPrev : Bool
  flagPrev : Bool
  icrData : BitVec 5
  icrMask : BitVec 5
deriving DecidableEq, Repr

/-- One sprite: its own registers (R70, R80) and its internal state (R82). -/
structure Sprite where
  /-- MnX. -/
  posX : Byte
  /-- MnY. -/
  posY : Byte
  /-- MnC. -/
  colour : Nibble
  mc : BitVec 6
  mcbase : BitVec 6
  dma : Bool
  disp : Bool
  yexpFf : Bool
  ptr : Byte
  shift : BitVec 24
  seqActive : Bool
  seqShift : BitVec 24
  seqQ : BitVec 6
deriving DecidableEq, Repr

/-- One column of `g_line` (R82): graphics byte, character data, idle flag. -/
structure GCell where
  g : Byte
  d : BitVec 12
  idle : Bool
deriving DecidableEq, Repr

/-- The VIC-II (R70..R82). -/
structure Vic where
  sprites : Oct Sprite
  /-- $D010. -/
  xMsb : Byte
  /-- $D011 bits 6..0; bit 7 is never stored here (R71). -/
  cr1 : Byte
  rasterCmp : BitVec 9
  lpx : Byte
  lpy : Byte
  /-- $D015 ME. -/
  enable : Byte
  /-- $D016 bits 5..0 (R75). -/
  cr2 : Byte
  /-- $D017 MYE. -/
  expandY : Byte
  /-- $D018 bits 7..1 (R76). -/
  memPtr : Byte
  irr : Nibble
  imr : Nibble
  /-- $D01B MDP. -/
  priority : Byte
  /-- $D01C MMC. -/
  multi : Byte
  /-- $D01D MXE. -/
  expandX : Byte
  /-- $D01E, `mmc`. -/
  collSprite : Byte
  /-- $D01F, `mbc`. -/
  collBack : Byte
  ec : Nibble
  b0c : Nibble
  b1c : Nibble
  b2c : Nibble
  b3c : Nibble
  mm0 : Nibble
  mm1 : Nibble
  x : Nat
  y : Nat
  vc : BitVec 10
  vcbase : BitVec 10
  rc : BitVec 3
  vmli : BitVec 6
  displayState : Bool
  denLatch : Bool
  /-- 40 entries. -/
  vmLine : List (BitVec 12)
  /-- 40 entries. -/
  gLine : List GCell
  baLowCount : Nat
  mainBorder : Bool
  vertBorder : Bool
  lpDone : Bool
  /-- Light-pen level at the previous cycle; true is high. -/
  lpPrev : Bool
  /-- BA level of the latest tick; true is high. -/
  baPrev : Bool
deriving DecidableEq, Repr

/-- The phase of a SID envelope (R93). -/
inductive EnvState where
  | attack
  | decaySustain
  | release
deriving DecidableEq, Repr

/-- One SID voice: registers (R90) and internal state (R93). -/
structure Voice where
  freq : Word
  pw : BitVec 12
  ctrl : Byte
  ad : Byte
  sr : Byte
  acc : BitVec 24
  lfsr : BitVec 23
  env : Byte
  envState : EnvState
  rateCtr : BitVec 15
  expCtr : Nat
  expPeriod : Nat
  holdZero : Bool
  gatePrev : Bool
  testPrev : Bool
  b19Prev : Bool
  wrapped : Bool
  /-- The waveform output of the latest tick (R752). -/
  wave : BitVec 12
deriving DecidableEq, Repr

/-- The SID (R90..R93): three voices, the filter and the latest output sample.  The filter memory is in units of
2^-20 (R765 allows a fixed-point form; log 3). -/
structure Sid where
  v1 : Voice
  v2 : Voice
  v3 : Voice
  fcLo : BitVec 3
  fcHi : Byte
  resFilt : Byte
  modeVol : Byte
  vlp : Int
  vbp : Int
  vhp : Int
  /-- The latest sample (R767), signed. -/
  sample : Word
deriving DecidableEq, Repr

/-- The pins that hold state: the assertion slots of the interrupt producers (R53, R541; true is asserted) and the
levels of BA and AEC (R54, R680; true is high). -/
structure Pins where
  irqCia1 : Bool
  irqVic : Bool
  nmiCia2 : Bool
  ba : Bool
  aec : Bool
deriving DecidableEq, Repr

/-- The external inputs that change only at vsync (R803). -/
structure SlowInputs where
  /-- `P_KEYS`: bit r of column c is `key[c][r]`. -/
  keys : Oct Byte
  /-- `P_JOY1`: bits 0 up, 1 down, 2 left, 3 right, 4 fire; 1 is pressed. -/
  joy1 : BitVec 5
  /-- `P_JOY2`. -/
  joy2 : BitVec 5
  /-- `P_RESTORE`: true is released. -/
  restore : Bool
  /-- `P_CASS_SENSE`: false while play is pressed. -/
  cassSense : Bool
deriving DecidableEq, Repr

/-- The external inputs that are arbitrary functions of the master cycle (R803; P_POT: U15, log 25), at one cycle. -/
structure PinInputs where
  /-- `P_RESET`: true is released. -/
  reset : Bool
  cnt1 : Bool
  sp1 : Bool
  cnt2 : Bool
  sp2 : Bool
  flag2 : Bool
  lightPen : Bool
  /-- `P_CASS_READ`; the tape player's level is ANDed with it (R808). -/
  cassRead : Bool
  /-- `P_SERIAL_IN`: an external device pulls CLK low. -/
  serialClk : Bool
  /-- `P_SERIAL_IN`: an external device pulls DATA low. -/
  serialData : Bool
  /-- `P_TOD_TICK` of CIA1, beside the periodic pulse of `Params.todPeriod`. -/
  tod1 : Bool
  /-- `P_TOD_TICK` of CIA2. -/
  tod2 : Bool
  /-- `P_POT`, first byte. -/
  potX : Byte
  /-- `P_POT`, second byte. -/
  potY : Byte
deriving DecidableEq, Repr

/-- What the outside drives: the present levels, the host's input queue (each entry stamped with the cycle it was
queued in; R803), and the future of the arbitrary inputs as the cycles at which they change. -/
structure Inputs where
  slow : SlowInputs
  pins : PinInputs
  queue : List (Nat × SlowInputs)
  schedule : List (Nat × PinInputs)
deriving DecidableEq, Repr

/-- The datasette's TAP playback (R808): the pulse lengths still to play, the cycles counted in the first of them,
and the read line's level, which is high before the first pulse (log 9). -/
structure Tape where
  pulses : List Nat
  count : Nat
  level : Bool
deriving DecidableEq, Repr

/-- The frame buffers (R712, R805): cells (8 pixels of 4 bits, pixel p at bits 4p+3..4p) keyed by
`y * cycles + x`, highest key first; and the vsync event of this cycle. -/
structure Video where
  back : List (Nat × BitVec 32)
  front : List (Nat × BitVec 32)
  vsync : Bool
  /-- How many frames have been handed over. -/
  frames : Nat
deriving DecidableEq, Repr

/-- What the tick callback is given for one bus cycle (R786). -/
structure BusTick where
  cycle : Nat
  addr : Word
  value : Byte
  isWrite : Bool
deriving DecidableEq, Repr

/-- The error taxonomy of R811. -/
inductive HostError where
  | configError
  | imageError
  | mountError
deriving DecidableEq, Repr

/-- The stored part of `status_flags` (R801): the run flag (R809) and the last error (R811); and whether a
ConfigError has stopped the machine from being built (R811). -/
structure HostStatus where
  run : Bool
  lastError : Option HostError
  /-- "Machine not built; halts": no step runs from here. -/
  halted : Bool
deriving DecidableEq, Repr

/-- The whole state. -/
structure State where
  regs : Regs
  latches : Latches
  port : Port
  /-- RAM (R57). -/
  ram : Memory
  /-- Colour RAM, cells 0..1023 (R57). -/
  colour : Memory
  /-- `data_bus_last` (R215). -/
  bus : Byte
  pins : Pins
  cia1 : Cia
  cia2 : Cia
  vic : Vic
  sid : Sid
  inputs : Inputs
  tape : Tape
  video : Video
  /-- The audio ring (R804), newest sample first. -/
  audio : List Word
  /-- The tick callback's record (R786), newest first. -/
  ticks : List BusTick
  /-- `cycle_counter` (R48). -/
  cycle : Nat
  status : HostStatus
  params : Params
deriving DecidableEq, Repr

/-- Why a step can stop with a fault.  The 6510 has no trap and no bus error (R540, R811), so no instruction faults. -/
inductive Fault where
  /-- Raised by `step` and `stepCycle` alone, where a ROM image of a wrong size was installed before master cycle 0:
  ConfigError, "machine not built; halts" (R811).  Safe: nothing runs. -/
  | configError
deriving DecidableEq, Repr

/-- Why a step can refuse. -/
inductive Refusal where
  /-- Raised by `exec` alone, for an instruction that has no meaning yet.  Safe: nothing runs. -/
  | notModelled (mnemonic : String)
  /-- Raised by the meanings of the 48 opcodes the spec refuses: `Refused(opcode)` (R19, R287).  Safe: nothing runs. -/
  | refusedOpcode (opcode : Byte)
deriving DecidableEq, Repr

/-- The CPU latches at reset (R47, R820); `resetPrev` is the level of CPU-RESET. -/
def Latches.reset (level : Bool) : Latches :=
  { nmiEdge := false, nmiPrev := true, irqPending := false, takeNmi := false, takeIrq := false
    resetPending := true, stalled := false, resetPrev := level
    poll1 := ⟨false, false⟩, poll2 := ⟨false, false⟩, micro := Micro.boundary }

/-- The processor port at reset (R49). -/
def Port.reset : Port := ⟨0, 0⟩

/-- The pins at reset: every producer released (R820). -/
def Pins.reset : Pins := ⟨false, false, false, true, true⟩

/-- A timer at reset (R66). -/
def Timer.reset : Timer := ⟨0xFFFF, 0xFFFF, false, false, false⟩

/-- A CIA at reset (R60..R66, R644). -/
def Cia.reset : Cia :=
  { pra := 0, prb := 0, ddra := 0, ddrb := 0, ta := Timer.reset, tb := Timer.reset, cra := 0, crb := 0
    tod := ⟨0, 0, 0, 1⟩, alarm := ⟨0, 0, 0, 0⟩, todLatch := none, todStopped := false, todDiv := 0
    sdr := 0, sdrShift := 0, sdrBits := 0, sdrPending := false, sdrPhase := false, spOut := true, cntOut := true
    cntPrev := true, flagPrev := true, icrData := 0, icrMask := 0 }

/-- A sprite at reset (R82). -/
def Sprite.reset : Sprite :=
  { posX := 0, posY := 0, colour := 0, mc := 0, mcbase := 0, dma := false, disp := false, yexpFf := true
    ptr := 0, shift := 0, seqActive := false, seqShift := 0, seqQ := 0 }

/-- The VIC at reset (R82, R728). -/
def Vic.reset : Vic :=
  { sprites := Oct.fill Sprite.reset, xMsb := 0, cr1 := 0, rasterCmp := 0, lpx := 0, lpy := 0, enable := 0
    cr2 := 0, expandY := 0, memPtr := 0, irr := 0, imr := 0, priority := 0, multi := 0, expandX := 0
    collSprite := 0, collBack := 0, ec := 0, b0c := 0, b1c := 0, b2c := 0, b3c := 0, mm0 := 0, mm1 := 0
    x := 0, y := 0, vc := 0, vcbase := 0, rc := 0, vmli := 0, displayState := false, denLatch := false
    vmLine := List.replicate 40 0, gLine := List.replicate 40 ⟨0, 0, false⟩, baLowCount := 0
    mainBorder := true, vertBorder := true, lpDone := false, lpPrev := true, baPrev := true }

/-- A SID voice at reset (R93, R770). -/
def Voice.reset : Voice :=
  { freq := 0, pw := 0, ctrl := 0, ad := 0, sr := 0, acc := 0, lfsr := 0x7FFFF8, env := 0, envState := .release
    rateCtr := 0, expCtr := 0, expPeriod := 1, holdZero := true, gatePrev := false, testPrev := false
    b19Prev := false, wrapped := false, wave := 0 }

/-- The SID at reset (R770). -/
def Sid.reset : Sid :=
  { v1 := Voice.reset, v2 := Voice.reset, v3 := Voice.reset, fcLo := 0, fcHi := 0, resFilt := 0, modeVol := 0
    vlp := 0, vbp := 0, vhp := 0, sample := 0 }

/-- The vsync inputs before the first vsync (R803): nothing pressed. -/
def SlowInputs.idle : SlowInputs := ⟨Oct.fill 0, 0, 0, true, true⟩

/-- The arbitrary inputs at their defaults (D18, D24, D29, D31): everything high, nothing pulled, no pulse, no
paddle. -/
def PinInputs.idle : PinInputs :=
  { reset := true, cnt1 := true, sp1 := true, cnt2 := true, sp2 := true, flag2 := true, lightPen := true
    cassRead := true, serialClk := false, serialData := false, tod1 := false, tod2 := false
    potX := 0xFF, potY := 0xFF }

/-- No external event, now or later. -/
def Inputs.idle : Inputs := ⟨SlowInputs.idle, PinInputs.idle, [], []⟩

/-- `P_RESET(0)`: the level of CPU-RESET in cycle 0 (R821). -/
def Inputs.reset0 (inp : Inputs) : Bool := (dueBy 0 inp.pins inp.schedule).1.reset

/-- The state at power-on, for any parameters and inputs: the reset state of R820 with `cycle_counter` = 0, PC = $0000
and the reset sequence pending (R821, D59).  The CPU-RESET detector starts at `P_RESET(0)`.  Until the first
vsync the host's inputs are at their power-on values, whatever `inp` holds for them (R803).  The run flag is set; no
rule gives its value at power-on (DESIGN CHOICE, log 16). -/
def State.powerOn (p : Params) (inp : Inputs) : State :=
  { regs := Regs.reset 0, latches := Latches.reset inp.reset0, port := Port.reset
    ram := p.ramInit, colour := colourInit p.ramInit, bus := 0xFF, pins := Pins.reset
    cia1 := Cia.reset, cia2 := Cia.reset, vic := Vic.reset, sid := Sid.reset
    inputs := { inp with slow := SlowInputs.idle }
    tape := ⟨[], 0, true⟩, video := ⟨[], [], false, 0⟩, audio := [], ticks := [], cycle := 0
    status := ⟨true, none, false⟩, params := p }

/-- The parameters of `State.reset`: PAL, no ROM image installed, no cartridge, `P_RAM_INIT` zero, the suggested TOD
pulse of D19 and the defaults of D27 and D28 (log 1). -/
def Params.default : Params :=
  { model := .pal, basicRom := [], kernalRom := [], charRom := [], cart := ⟨.none, [], []⟩, ramInit := []
    todPeriod := 19704, sidRates := [], sidFilter := [], ntscSlots := [], ntscXpos := none }

/-- The machine right after reset: power-on with the default parameters and no external event (R820, R821). -/
def State.reset : State := State.powerOn Params.default Inputs.idle

end Sys2Proof.Machine
end

