-- ==== Sys2Proof/Machine/Flags.lean ====
section
/-! DEFINITION. Results and flags (41_arith_logic.md R400..R405), and the register effect of every operation, as
functions of the operand and the registers before. -/

namespace Sys2Proof.Machine

/-! ### The status register -/

/-- `SetNZ` (R18). -/
def setNZ (v : Byte) (p : Flags) : Flags := { p with n := bit v 7, z := decide (v = 0) }

/-- `PImage(b)` (R45). -/
def pImage (b : Bool) (p : Flags) : Byte :=
  ofBits fun i =>
    match i with
    | 0 => p.c
    | 1 => p.z
    | 2 => p.i
    | 3 => p.d
    | 4 => b
    | 5 => true
    | 6 => p.v
    | _ => p.n

/-- The flags PLP and RTI load from a pulled byte (R45): bits 5 and 4 are ignored. -/
def Flags.ofByte (m : Byte) : Flags := ⟨bit m 7, bit m 6, bit m 3, bit m 2, bit m 1, bit m 0⟩

/-! ### Arithmetic laws -/

/-- A result with the four arithmetic flags. -/
structure Alu where
  res : Byte
  n : Bool
  v : Bool
  z : Bool
  c : Bool
deriving DecidableEq, Repr

/-- Binary addition (R400). -/
def addBinary (a m : Byte) (c : Bool) : Alu :=
  let r := a.toNat + m.toNat + b2n c
  let res := BitVec.ofNat 8 r
  ⟨res, bit res 7, bit (a ^^^ res) 7 && bit (m ^^^ res) 7, decide (res = 0), decide (0xFF < r)⟩

/-- Decimal addition (R401), for every operand. -/
def addDecimal (a m : Byte) (c : Bool) : Alu :=
  let lo0 := a.toNat % 16 + m.toNat % 16 + b2n c
  let lo := if lo0 > 9 then lo0 + 6 else lo0
  let t0 := lo % 16 + a.toNat / 16 * 16 + m.toNat / 16 * 16 + (if lo ≤ 0x0F then 0 else 0x10)
  let t := if t0 / 16 * 16 % 0x200 > 0x90 then t0 + 0x60 else t0
  ⟨BitVec.ofNat 8 t, decide (t0 / 128 % 2 = 1), bit (a ^^^ BitVec.ofNat 8 t0) 7 && !(bit (a ^^^ m) 7),
    decide ((a.toNat + m.toNat + b2n c) % 256 = 0), decide (t / 16 * 16 % 0x1000 > 0xF0)⟩

/-- The borrow `1 − c` as a 16-bit number. -/
def borrow (c : Bool) : Word := if c then 0 else 1

/-- Binary subtraction (R402). -/
def subBinary (a m : Byte) (c : Bool) : Alu :=
  let t : Word := zext16 a - zext16 m - borrow c
  let res := loByte t
  ⟨res, bit res 7, bit (a ^^^ res) 7 && bit (a ^^^ m) 7, decide (res = 0), decide (t < 0x100)⟩

/-- The result of decimal subtraction (R403), every subtraction taken mod 2^16. -/
def subDecimalResult (a m : Byte) (c : Bool) : Byte :=
  let tl0 : Word := zext16 (a &&& 0x0F) - zext16 (m &&& 0x0F) - borrow c
  let hi : Word := zext16 (a &&& 0xF0) - zext16 (m &&& 0xF0)
  let tl1 : Word := if bit tl0 4 then ((tl0 - 6) &&& 0x0F) ||| (hi - 0x10) else (tl0 &&& 0x0F) ||| hi
  loByte (if bit tl1 8 then tl1 - 0x60 else tl1)

/-- Decimal subtraction (R403): the flags are those of the binary difference. -/
def subDecimal (a m : Byte) (c : Bool) : Alu := { subBinary a m c with res := subDecimalResult a m c }

/-- Compare (R404). -/
def compareFlags (r m : Byte) (p : Flags) : Flags :=
  { p with n := bit (r - m) 7, z := decide (r = m), c := decide (m.toNat ≤ r.toNat) }

/-- ASL (R405): result and carry out. -/
def shiftLeft (v : Byte) : Byte × Bool := (v <<< 1, bit v 7)

/-- LSR (R405). -/
def shiftRight (v : Byte) : Byte × Bool := (v >>> 1, bit v 0)

/-- ROL (R405). -/
def rotateLeft (v : Byte) (c : Bool) : Byte × Bool := (putBit (v <<< 1) 0 c, bit v 7)

/-- ROR (R405). -/
def rotateRight (v : Byte) (c : Bool) : Byte × Bool := (putBit (v >>> 1) 7 c, bit v 0)

/-! ### Register effects: loads, logic, arithmetic, compares -/

/-- `A <- v; SetNZ(v)`. -/
def setA (v : Byte) (r : Regs) : Regs := { r with a := v, p := setNZ v r.p }

/-- `X <- v; SetNZ(v)`. -/
def setX (v : Byte) (r : Regs) : Regs := { r with x := v, p := setNZ v r.p }

/-- `Y <- v; SetNZ(v)`. -/
def setY (v : Byte) (r : Regs) : Regs := { r with y := v, p := setNZ v r.p }

/-- `(A, N, V, Z, C) <- o`. -/
def setAlu (o : Alu) (r : Regs) : Regs :=
  { r with a := o.res, p := { r.p with n := o.n, v := o.v, z := o.z, c := o.c } }

/-- ADC with an explicit carry-in (R410). -/
def addCarry (m : Byte) (c : Bool) (r : Regs) : Regs :=
  setAlu (if r.p.d then addDecimal r.a m c else addBinary r.a m c) r

/-- ADC (R410). -/
def adc (m : Byte) (r : Regs) : Regs := addCarry m r.p.c r

/-- SBC (R411). -/
def sbc (m : Byte) (r : Regs) : Regs := setAlu (if r.p.d then subDecimal r.a m r.p.c else subBinary r.a m r.p.c) r

/-- AND (R412). -/
def andA (m : Byte) (r : Regs) : Regs := setA (r.a &&& m) r

/-- ORA (R413). -/
def oraA (m : Byte) (r : Regs) : Regs := setA (r.a ||| m) r

/-- EOR (R414). -/
def eorA (m : Byte) (r : Regs) : Regs := setA (r.a ^^^ m) r

/-- CMP (R415). -/
def cmpA (m : Byte) (r : Regs) : Regs := { r with p := compareFlags r.a m r.p }

/-- CPX (R416). -/
def cmpX (m : Byte) (r : Regs) : Regs := { r with p := compareFlags r.x m r.p }

/-- CPY (R417). -/
def cmpY (m : Byte) (r : Regs) : Regs := { r with p := compareFlags r.y m r.p }

/-- BIT (R418). -/
def bitTest (m : Byte) (r : Regs) : Regs :=
  { r with p := { r.p with n := bit m 7, v := bit m 6, z := decide (r.a &&& m = 0) } }

/-- LAX (R500). -/
def lax (m : Byte) (r : Regs) : Regs := { r with a := m, x := m, p := setNZ m r.p }

/-- ANC (R508). -/
def anc (m : Byte) (r : Regs) : Regs :=
  let v := r.a &&& m
  { r with a := v, p := { setNZ v r.p with c := bit v 7 } }

/-- ALR (R509). -/
def alr (m : Byte) (r : Regs) : Regs :=
  let t := r.a &&& m
  let v := t >>> 1
  { r with a := v, p := { setNZ v r.p with c := bit t 0 } }

/-- ARR with D = 0 (R510); `t` is `A & imm8`. -/
def arrBinary (t : Byte) (r : Regs) : Regs :=
  let v := putBit (t >>> 1) 7 r.p.c
  { r with a := v, p := { setNZ v r.p with c := bit v 6, v := bit v 6 != bit v 5 } }

/-- ARR with D = 1 (R510); `t` is `A & imm8`. -/
def arrDecimal (t : Byte) (r : Regs) : Regs :=
  let v := putBit (t >>> 1) 7 r.p.c
  let v1 := if t.toNat % 16 + t.toNat % 2 > 5 then (v &&& 0xF0) ||| ((v + 6) &&& 0x0F) else v
  let carry := decide (t.toNat / 16 * 16 + (t.toNat / 16 % 2) * 16 > 0x50)
  { r with
    a := if carry then (v1 &&& 0x0F) ||| ((v1 + 0x60) &&& 0xF0) else v1
    p := { r.p with n := r.p.c, z := decide (v = 0), v := bit (v ^^^ t) 6, c := carry } }

/-- ARR (R510). -/
def arr (m : Byte) (r : Regs) : Regs := if r.p.d then arrDecimal (r.a &&& m) r else arrBinary (r.a &&& m) r

/-- SBX (R511). -/
def sbx (m : Byte) (r : Regs) : Regs :=
  let t := r.a &&& r.x
  let v := t - m
  { r with x := v, p := { setNZ v r.p with c := decide (m.toNat ≤ t.toNat) } }

/-! ### Register effects: implied operations -/

/-- TAX (R346). -/
def tax (r : Regs) : Regs := setX r.a r
/-- TAY (R347). -/
def tay (r : Regs) : Regs := setY r.a r
/-- TXA (R348). -/
def txa (r : Regs) : Regs := setA r.x r
/-- TYA (R349). -/
def tya (r : Regs) : Regs := setA r.y r
/-- TSX (R350). -/
def tsx (r : Regs) : Regs := setX r.s r
/-- TXS (R351). -/
def txs (r : Regs) : Regs := { r with s := r.x }
/-- INX (R421). -/
def inx (r : Regs) : Regs := setX (r.x + 1) r
/-- INY (R422). -/
def iny (r : Regs) : Regs := setY (r.y + 1) r
/-- DEX (R423). -/
def dex (r : Regs) : Regs := setX (r.x - 1) r
/-- DEY (R424). -/
def dey (r : Regs) : Regs := setY (r.y - 1) r
/-- CLC (R470). -/
def clc (r : Regs) : Regs := { r with p := { r.p with c := false } }
/-- CLD (R471). -/
def cld (r : Regs) : Regs := { r with p := { r.p with d := false } }
/-- CLI (R472). -/
def cli (r : Regs) : Regs := { r with p := { r.p with i := false } }
/-- CLV (R473). -/
def clv (r : Regs) : Regs := { r with p := { r.p with v := false } }
/-- SEC (R474). -/
def sec (r : Regs) : Regs := { r with p := { r.p with c := true } }
/-- SED (R475). -/
def sed (r : Regs) : Regs := { r with p := { r.p with d := true } }
/-- SEI (R476). -/
def sei (r : Regs) : Regs := { r with p := { r.p with i := true } }
/-- NOP (R477). -/
def nopRegs (r : Regs) : Regs := r

/-! ### Read-modify-write operations: the byte written and the registers after -/

/-- A shift's flags: C from the carry out, N and Z from the result (R425..R428). -/
def shiftFlags (o : Byte × Bool) (r : Regs) : Regs := { r with p := { setNZ o.1 r.p with c := o.2 } }

/-- ASL on memory (R425). -/
def aslM (m : Byte) (r : Regs) : Byte × Regs := ((shiftLeft m).1, shiftFlags (shiftLeft m) r)
/-- LSR on memory (R426). -/
def lsrM (m : Byte) (r : Regs) : Byte × Regs := ((shiftRight m).1, shiftFlags (shiftRight m) r)
/-- ROL on memory (R427). -/
def rolM (m : Byte) (r : Regs) : Byte × Regs := ((rotateLeft m r.p.c).1, shiftFlags (rotateLeft m r.p.c) r)
/-- ROR on memory (R428). -/
def rorM (m : Byte) (r : Regs) : Byte × Regs := ((rotateRight m r.p.c).1, shiftFlags (rotateRight m r.p.c) r)
/-- INC (R419). -/
def incM (m : Byte) (r : Regs) : Byte × Regs := (m + 1, { r with p := setNZ (m + 1) r.p })
/-- DEC (R420). -/
def decM (m : Byte) (r : Regs) : Byte × Regs := (m - 1, { r with p := setNZ (m - 1) r.p })
/-- DCP (R502). -/
def dcpM (m : Byte) (r : Regs) : Byte × Regs := (m - 1, cmpA (m - 1) r)
/-- ISC (R503). -/
def iscM (m : Byte) (r : Regs) : Byte × Regs := (m + 1, sbc (m + 1) r)
/-- RLA (R504). -/
def rlaM (m : Byte) (r : Regs) : Byte × Regs :=
  let o := rotateLeft m r.p.c
  (o.1, andA o.1 { r with p := { r.p with c := o.2 } })
/-- RRA (R505). -/
def rraM (m : Byte) (r : Regs) : Byte × Regs :=
  let o := rotateRight m r.p.c
  (o.1, addCarry o.1 o.2 r)
/-- SLO (R506). -/
def sloM (m : Byte) (r : Regs) : Byte × Regs :=
  let o := shiftLeft m
  (o.1, oraA o.1 { r with p := { r.p with c := o.2 } })
/-- SRE (R507). -/
def sreM (m : Byte) (r : Regs) : Byte × Regs :=
  let o := shiftRight m
  (o.1, eorA o.1 { r with p := { r.p with c := o.2 } })

/-- The accumulator form of a read-modify-write operation (R332 row acc). -/
def onA (f : Byte → Regs → Byte × Regs) (r : Regs) : Regs := { (f r.a r).2 with a := (f r.a r).1 }

end Sys2Proof.Machine
end

