-- ==== Sys2Proof/Machine/Pins.lean ====
section
/-! DEFINITION. Pin levels: the processor port (10_state.md R50..R52), the CIA port pins (61_cia.md R630..R636), the
interrupt lines (60_exceptions.md R541) and the cartridge lines (R55).  A level is computed when it is read. -/

namespace Sys2Proof.Machine

/-! ### External inputs -/

/-- `P_TOD_TICK(c, t)` (R620, D19): the scheduled pulse, or the periodic one. -/
def todPulse (period t : Nat) (pin : Bool) : Bool := pin || (decide (0 < period) && decide (t % period = 0))

/-- The cassette-read pin: the datasette's TAP playback (R808) and `P_CASS_READ`. -/
def cassRead (s : State) : Bool := s.inputs.pins.cassRead && s.tape.level

/-! ### Processor port -/

/-- `pin_in` of R50: pull-ups on bits 0..3 and 5, the cassette-sense pin on bit 4, nothing on bits 6 and 7. -/
def portPins (sense : Bool) : Byte := if sense then 0x3F else 0x2F

/-- What a CPU read of $0001 returns, which is also the level the port drives (R51). -/
def Port.level (p : Port) (sense : Bool) : Byte := (p.data &&& p.ddr) ||| (portPins sense &&& ~~~p.ddr)

/-- The cassette-motor line: `drive(5)`, 0 is on (R50, R52). -/
def motorOn (s : State) : Bool := !(bit (s.port.level s.inputs.slow.cassSense) 5)

/-! ### Cartridge lines -/

/-- The EXROM line (R55). -/
def cartExrom : CartKind → Bool
  | .none => true
  | .k8 => false
  | .k16 => false
  | .ultimax => true

/-- The GAME line (R55). -/
def cartGame : CartKind → Bool
  | .none => true
  | .k8 => true
  | .k16 => false
  | .ultimax => false

/-- The MMU mode `EXROM<<4 | GAME<<3 | CHAREN<<2 | HIRAM<<1 | LORAM` (R56), from the cartridge lines and the port.
The bank bits do not depend on the cassette-sense pin. -/
def mmuMode (kind : CartKind) (p : Port) : Nat :=
  16 * b2n (cartExrom kind) + 8 * b2n (cartGame kind) + (p.level true).toNat % 8

/-! ### CIA port pins -/

/-- The CIA's own drive of port A (R630): an input floats high. -/
def Cia.drvA (c : Cia) (i : Nat) : Bool := if bit c.ddra i then bit c.pra i else true

/-- The CIA's own drive of port B (R630), with the timer outputs on PB6 and PB7 under PBON (R611). -/
def Cia.drvB (c : Cia) (i : Nat) : Bool :=
  if i = 6 ∧ bit c.cra 1 = true then c.ta.out
  else if i = 7 ∧ bit c.crb 1 = true then c.tb.out
  else if bit c.ddrb i then bit c.prb i else true

/-- `PAe[c]` of CIA1 (R631): joystick port 2 on PA0..PA4. -/
def cia1Ae (inp : SlowInputs) (c : Cia) (i : Nat) : Bool := c.drvA i && !(decide (i < 5) && bit inp.joy2 i)

/-- `PBe[r]` of CIA1 (R631): joystick port 1 on PB0..PB4. -/
def cia1Be (inp : SlowInputs) (c : Cia) (r : Nat) : Bool := c.drvB r && !(decide (r < 5) && bit inp.joy1 r)

/-- CIA1's PA pin (R631). -/
def cia1PinA (inp : SlowInputs) (c : Cia) (i : Nat) : Bool :=
  cia1Ae inp c i && !(any8 fun r => bit (inp.keys.get i) r && !(cia1Be inp c r))

/-- CIA1's PB pin (R631). -/
def cia1PinB (inp : SlowInputs) (c : Cia) (r : Nat) : Bool :=
  cia1Be inp c r && !(any8 fun i => bit (inp.keys.get i) r && !(cia1Ae inp c i))

/-- The CLK line of the serial bus, true is high (R636). -/
def serialClkLine (pins : PinInputs) (c : Cia) : Bool := !(c.drvA 4 || pins.serialClk)

/-- The DATA line of the serial bus, true is high (R636). -/
def serialDataLine (pins : PinInputs) (c : Cia) : Bool := !(c.drvA 5 || pins.serialData)

/-- The ATN line of the serial bus, true is high (R636). -/
def serialAtnLine (c : Cia) : Bool := !(c.drvA 3)

/-- CIA2's PA pin (R633, R636): PA6 and PA7 see the CLK and DATA lines, nothing else is pulled low. -/
def cia2PinA (pins : PinInputs) (c : Cia) (i : Nat) : Bool :=
  if i = 6 then c.drvA 6 && serialClkLine pins c
  else if i = 7 then c.drvA 7 && serialDataLine pins c
  else c.drvA i

/-- CIA2's PB pin (R634): the user port, with nothing connected. -/
def cia2PinB (c : Cia) (i : Nat) : Bool := c.drvB i

/-- The VIC bank (R201, R633): the inverted levels of CIA2's PA1 and PA0. -/
def vicBank (pins : PinInputs) (c : Cia) : Nat := 2 * b2n (!(cia2PinA pins c 1)) + b2n (!(cia2PinA pins c 0))

/-- The VIC's light-pen input (R632, R720): CIA1's PB4 pin and `P_LIGHTPEN`. -/
def lightPenIn (s : State) : Bool := cia1PinB s.inputs.slow s.cia1 4 && s.inputs.pins.lightPen

/-! ### Interrupt lines -/

/-- The IRQ pin is low: CIA1 or the VIC asserts it (R53, R541). -/
def irqLow (s : State) : Bool := s.pins.irqCia1 || s.pins.irqVic

/-- The NMI pin is low: CIA2 asserts it or the RESTORE key is pressed (R53, R541). -/
def nmiLow (s : State) : Bool := s.pins.nmiCia2 || !s.inputs.slow.restore

end Sys2Proof.Machine
end

