-- ==== Sys2Proof/Machine/Cia.lean ====
section
/-! DEFINITION. The CIA 6526 (61_cia.md): register reads and writes in the CPU phase, and the tick. -/

namespace Sys2Proof.Machine

/-- Set bit `i` of the interrupt data (R643). -/
def Cia.event (c : Cia) (i : Nat) (happens : Bool) : Cia :=
  if happens then { c with icrData := putBit c.icrData i true } else c

/-- Whether the CIA asserts its interrupt producer (R640). -/
def Cia.line (c : Cia) : Bool := (c.icrData &&& c.icrMask) != 0

/-! ### Timers -/

/-- One tick of a timer (R603..R606), and whether it underflowed. -/
def Timer.tick (t : Timer) (start oneShot pulse : Bool) : Timer × Bool :=
  if !start then (t, false)
  else if t.loadDelay then ({ t with loadDelay := false }, false)
  else if !t.started then ({ t with counter := t.latch, started := true }, false)
  else if !pulse then (t, false)
  else if t.counter = 0 then ({ t with counter := t.latch, started := !oneShot }, true)
  else ({ t with counter := t.counter - 1 }, false)

/-- The PB6/PB7 output after a tick (R611).  In pulse mode every tick without an underflow leaves it 0, also where it
was 1 from toggle mode; in toggle mode such a tick leaves it as it is, also right after a pulse-mode underflow (DESIGN
CHOICE, log 28). -/
def Timer.output (t : Timer) (toggle underflow : Bool) : Timer :=
  if toggle then { t with out := if underflow then !t.out else t.out } else { t with out := underflow }

/-- START, cleared by the underflow of a one-shot timer (R605, R606). -/
def stopOneShot (ctrl : Byte) (underflow : Bool) : Byte :=
  if underflow && bit ctrl 3 then putBit ctrl 0 false else ctrl

/-- The effect of a control-register write on its timer (R602, R608, R611): `old` and `v` are the register before the
write and the value written. -/
def Timer.control (t : Timer) (old v : Byte) : Timer :=
  let t1 := if bit v 4 then { t with counter := t.latch } else t
  if bit v 0 then
    if bit old 0 then t1
    else { t1 with loadDelay := true, started := false, out := if bit v 2 then true else t1.out }
  else { t1 with loadDelay := false, started := false }

/-- A write of the latch's low byte (R607). -/
def Timer.writeLo (t : Timer) (v : Byte) : Timer := { t with latch := word (hiByte t.latch) v }

/-- A write of the latch's high byte, which reloads a stopped counter (R607). -/
def Timer.writeHi (t : Timer) (start : Bool) (v : Byte) : Timer :=
  let l := word v (loByte t.latch)
  { t with latch := l, counter := if start then t.counter else l }

/-! ### Time of day -/

/-- One BCD digit counts: `inc` of R623, with its carry. -/
def bcdInc (d max mask : Nat) : Nat × Bool := if d = max then (0, true) else ((d + 1) &&& mask, false)

/-- A seconds or minutes field counts (R623), with its carry. -/
def bcdSixty (v : Byte) : Byte × Bool :=
  let (u, cu) := bcdInc (v.toNat % 16) 9 0xF
  let t := v.toNat / 16 % 8
  let (t', ct) := if cu then bcdInc t 5 0x7 else (t, false)
  (BitVec.ofNat 8 (16 * t' + u), ct)

/-- The hours field counts (R623): a 12-hour clock whose PM flag toggles from 11 to 12. -/
def bcdHours (v : Byte) : Byte :=
  let pm := v &&& 0x80
  let h := v.toNat % 32
  if h = 0x11 then (0x12 ||| pm) ^^^ 0x80
  else if h = 0x12 then 0x01 ||| pm
  else
    let (u, cu) := bcdInc (h % 16) 9 0xF
    let t := if cu then (h / 16 + 1) % 2 else h / 16
    BitVec.ofNat 8 (16 * t + u) ||| pm

/-- The clock advances by one tenth (R623). -/
def Tod.advance (t : Tod) : Tod :=
  let (u, c0) := bcdInc (t.tenths.toNat % 16) 9 0xF
  let t1 := { t with tenths := BitVec.ofNat 8 u }
  if c0 then
    let (sec, c1) := bcdSixty t.sec
    let t2 := { t1 with sec := sec }
    if c1 then
      let (min, c2) := bcdSixty t.min
      let t3 := { t2 with min := min }
      if c2 then { t3 with hr := bcdHours t.hr } else t3
    else t2
  else t1

/-- The alarm comparison after a change of the clock or the alarm (R624). -/
def Cia.alarmCheck (c : Cia) : Cia := c.event 2 (decide (c.tod = c.alarm))

/-- `tod_div + 1` in the range 0..5 that R66 gives it; what it holds for 6 is free (log 6). -/
def todCount (d : Fin 6) : Fin 6 := if h : d.val + 1 < 6 then ⟨d.val + 1, h⟩ else Config.todDivPast

/-- The TOD part of a tick (R620).  The comparison is equality, so a divider that a change of TODIN has let past its
divisor does not advance the clock (log 6). -/
def Cia.todTick (c : Cia) (pulse : Bool) : Cia :=
  if pulse && !c.todStopped then
    if c.todDiv.val + 1 = (if bit c.cra 7 then 5 else 6) then
      ({ c with todDiv := 0, tod := c.tod.advance }).alarmCheck
    else { c with todDiv := todCount c.todDiv }
  else c

/-- A write of a TOD register: the alarm when CRB bit 7 is set, else the clock (R622). -/
def Cia.todWrite (c : Cia) (r : Nat) (v : Byte) : Cia :=
  let put (t : Tod) : Tod :=
    match r with
    | 8 => { t with tenths := v &&& 0x0F }
    | 9 => { t with sec := v &&& 0x7F }
    | 10 => { t with min := v &&& 0x7F }
    | _ => { t with hr := v &&& 0x9F }
  let c1 :=
    if bit c.crb 7 then { c with alarm := put c.alarm }
    else
      let c2 := { c with tod := put c.tod }
      match r with
      | 8 => { c2 with todStopped := false, todDiv := 0 }
      | 11 => { c2 with todStopped := true }
      | _ => c2
  c1.alarmCheck

/-- The TOD value a read sees: the snapshot while it is valid (R621). -/
def Cia.todSeen (c : Cia) : Tod :=
  match c.todLatch with
  | some t => t
  | none => c.tod

/-! ### Serial port -/

/-- The serial port in output mode, at a timer A underflow (R625). -/
def Cia.serialOut (c : Cia) : Cia :=
  let c1 :=
    if c.sdrBits = 0 && c.sdrPending then
      { c with sdrShift := c.sdr, sdrBits := 8, sdrPending := false, sdrPhase := false }
    else c
  if c1.sdrBits = 0 then c1
  else
    let c2 := { c1 with cntOut := !c1.cntOut, sdrPhase := !c1.sdrPhase }
    if c1.sdrPhase then
      ({ c2 with
          spOut := bit c1.sdrShift 7, sdrShift := c1.sdrShift <<< 1, sdrBits := c1.sdrBits - 1 }).event 3
        (decide (c1.sdrBits = 1))
    else c2

/-- The serial port in input mode, at a positive CNT edge (R625). -/
def Cia.serialIn (c : Cia) (sp : Bool) : Cia :=
  let sh := putBit (c.sdrShift <<< 1) 0 sp
  if c.sdrBits + 1 = 8 then ({ c with sdr := sh, sdrShift := sh, sdrBits := 0 }).event 3 true
  else { c with sdrShift := sh, sdrBits := c.sdrBits + 1 }

/-- The serial part of a tick (R600 step 4, R625). -/
def Cia.serialTick (c : Cia) (underflowA cntEdge sp : Bool) : Cia :=
  if bit c.cra 6 then (if underflowA then c.serialOut else c)
  else (if cntEdge then c.serialIn sp else c)

/-! ### The tick -/

/-- What a CIA's other pins carry in a tick (R632, R634). -/
structure CiaPins where
  cnt : Bool
  sp : Bool
  flag : Bool
  tod : Bool
deriving DecidableEq, Repr

/-- Timer A's part of a tick (R600 step 1), and whether it underflowed. -/
def Cia.tickA (c : Cia) (cntEdge : Bool) : Cia × Bool :=
  let (t, u) := c.ta.tick (bit c.cra 0) (bit c.cra 3) (if bit c.cra 5 then cntEdge else true)
  (({ c with ta := t, cra := stopOneShot c.cra u }).event 0 u, u)

/-- Timer B's part of a tick (R600 step 2), which sees timer A's underflow of the same tick (R604, R609). -/
def Cia.tickB (c : Cia) (cntEdge cnt underflowA : Bool) : Cia × Bool :=
  let pulse :=
    if bit c.crb 6 then (if bit c.crb 5 then underflowA && cnt else underflowA)
    else (if bit c.crb 5 then cntEdge else true)
  let (t, u) := c.tb.tick (bit c.crb 0) (bit c.crb 3) pulse
  (({ c with tb := t, crb := stopOneShot c.crb u }).event 1 u, u)

/-- One tick (R600); the interrupt producer of step 8 is `Cia.line` of the result. -/
def Cia.tick (c : Cia) (p : CiaPins) : Cia :=
  let cntEdge := !c.cntPrev && p.cnt
  let (c1, ua) := c.tickA cntEdge
  let (c2, ub) := c1.tickB cntEdge p.cnt ua
  let c3 := { c2 with ta := c2.ta.output (bit c2.cra 2) ua, tb := c2.tb.output (bit c2.crb 2) ub }
  let c4 := c3.serialTick ua cntEdge p.sp
  let c5 := c4.todTick p.tod
  let c6 := c5.event 4 (c5.flagPrev && !p.flag)
  { c6 with cntPrev := p.cnt, flagPrev := p.flag }

/-! ### Register access -/

/-- The value of a register read (R60..R65, R610, R621, R641); `pa` and `pb` are the port's pin levels. -/
def Cia.readValue (c : Cia) (r : Nat) (pa pb : Byte) : Byte :=
  match r with
  | 0 => (c.pra &&& c.ddra) ||| (pa &&& ~~~c.ddra)
  | 1 =>
    let v := (c.prb &&& c.ddrb) ||| (pb &&& ~~~c.ddrb)
    let v6 := if bit c.cra 1 then putBit v 6 c.ta.out else v
    if bit c.crb 1 then putBit v6 7 c.tb.out else v6
  | 2 => c.ddra
  | 3 => c.ddrb
  | 4 => loByte c.ta.counter
  | 5 => hiByte c.ta.counter
  | 6 => loByte c.tb.counter
  | 7 => hiByte c.tb.counter
  | 8 => c.todSeen.tenths
  | 9 => c.todSeen.sec
  | 10 => c.todSeen.min
  | 11 => c.todSeen.hr
  | 12 => c.sdr
  | 13 => putBit (c.icrData.setWidth 8) 7 c.line
  | 14 => c.cra
  | _ => c.crb

/-- The side effect of a register read (R621, R641). -/
def Cia.readEffect (c : Cia) (r : Nat) : Cia :=
  match r with
  | 8 => { c with todLatch := none }
  | 11 => { c with todLatch := some c.todSeen }
  | 13 => { c with icrData := 0 }
  | _ => c

/-- A register write (R60..R65, R602, R607, R608, R622, R625, R642). -/
def Cia.write (c : Cia) (r : Nat) (v : Byte) : Cia :=
  match r with
  | 0 => { c with pra := v }
  | 1 => { c with prb := v }
  | 2 => { c with ddra := v }
  | 3 => { c with ddrb := v }
  | 4 => { c with ta := c.ta.writeLo v }
  | 5 => { c with ta := c.ta.writeHi (bit c.cra 0) v }
  | 6 => { c with tb := c.tb.writeLo v }
  | 7 => { c with tb := c.tb.writeHi (bit c.crb 0) v }
  | 8 => c.todWrite 8 v
  | 9 => c.todWrite 9 v
  | 10 => c.todWrite 10 v
  | 11 => c.todWrite 11 v
  | 12 => { c with sdr := v, sdrPending := c.sdrPending || bit c.cra 6 }
  | 13 =>
    let m : BitVec 5 := v.setWidth 5
    { c with icrMask := if bit v 7 then c.icrMask ||| m else c.icrMask &&& ~~~m }
  | 14 => { c with ta := c.ta.control c.cra v, cra := v &&& 0xEF }
  | _ => { c with tb := c.tb.control c.crb v, crb := v &&& 0xEF }

end Sys2Proof.Machine
end

