-- ==== Sys2Proof/Machine/Sid.lean ====
section
/-! DEFINITION. The SID 6581 (63_sid.md): register access and the tick. -/

namespace Sys2Proof.Machine

/-! ### Control edges and oscillators -/

/-- Step 1 of a tick: the edges of GATE and TEST (R741). -/
def Voice.edges (v : Voice) : Voice :=
  let gate := bit v.ctrl 0
  let test := bit v.ctrl 3
  let v1 :=
    if gate && !v.gatePrev then { v with envState := .attack, holdZero := false }
    else if !gate && v.gatePrev then { v with envState := .release }
    else v
  let v2 := if !test && v.testPrev then { v1 with lfsr := 0x7FFFF8 } else v1
  { v2 with gatePrev := gate, testPrev := test }

/-- Step 2: the phase accumulator (R745). -/
def Voice.accumulate (v : Voice) : Voice :=
  if bit v.ctrl 3 then { v with acc := 0, wrapped := false }
  else
    { v with
      acc := v.acc + v.freq.setWidth 24, wrapped := decide (2 ^ 24 ≤ v.acc.toNat + v.freq.toNat) }

/-- Step 3: hard sync by the source voice's wrap (R746). -/
def Voice.sync (v : Voice) (srcWrapped : Bool) : Voice :=
  if bit v.ctrl 1 && srcWrapped then { v with acc := 0 } else v

/-- Step 4: the noise register (R747). -/
def Voice.noise (v : Voice) : Voice :=
  let b19 := bit v.acc 19
  let l :=
    if bit v.ctrl 3 then 0
    else if !v.b19Prev && b19 then putBit (v.lfsr <<< 1) 0 (bit v.lfsr 22 ^^ bit v.lfsr 17)
    else v.lfsr
  { v with lfsr := l, b19Prev := b19 }

/-! ### Envelopes -/

/-- The default rate table (R755, D27). -/
def defaultRates : List Nat :=
  [9, 32, 63, 95, 149, 220, 267, 313, 392, 977, 1954, 3126, 3907, 11720, 19532, 31251]

/-- `RATE[r]` (R755). -/
def sidRate (p : Params) (r : Nat) : Nat :=
  match p.sidRates[r]? with
  | some n => n
  | none => defaultRates.getD r 9

/-- The rate index of the present phase (R755). -/
def Voice.rateIndex (v : Voice) : Nat :=
  match v.envState with
  | .attack => v.ad.toNat / 16
  | .decaySustain => v.ad.toNat % 16
  | .release => v.sr.toNat % 16

/-- The exponential period set by an envelope value, where the drop table has it (R758). -/
def dropPeriod (env : Byte) : Option Nat :=
  match env.toNat with
  | 0xFF => some 1
  | 0x5D => some 2
  | 0x36 => some 4
  | 0x1A => some 8
  | 0x0E => some 16
  | 0x06 => some 30
  | 0x00 => some 1
  | _ => none

/-- A new envelope value, with the period and the hold that follow from it (R758). -/
def Voice.setEnv (v : Voice) (e : Byte) : Voice :=
  { v with
    env := e
    expPeriod := match dropPeriod e with
      | some n => n
      | none => v.expPeriod
    holdZero := if e = 0 then true else v.holdZero }

/-- One envelope step (R757).  ENV is 8 bits wide (R93), so a decrement from 0 gives $FF (DEDUCED, log 26). -/
def Voice.envStep (v : Voice) : Voice :=
  match v.envState with
  | .attack =>
    let v1 := v.setEnv (v.env + 1)
    if v1.env = 0xFF then { v1 with envState := .decaySustain } else v1
  | .decaySustain =>
    if v.expCtr + 1 ≥ v.expPeriod then
      let v1 := { v with expCtr := 0 }
      if v.env.toNat ≠ v.sr.toNat / 16 * 0x11 ∧ v.holdZero = false then v1.setEnv (v.env - 1) else v1
    else { v with expCtr := v.expCtr + 1 }
  | .release =>
    if v.expCtr + 1 ≥ v.expPeriod then
      let v1 := { v with expCtr := 0 }
      if v.holdZero = false then v1.setEnv (v.env - 1) else v1
    else { v with expCtr := v.expCtr + 1 }

/-- Step 5: the rate counter and the envelope (R756). -/
def Voice.envelope (v : Voice) (p : Params) : Voice :=
  if (v.rateCtr + 1).toNat ≥ sidRate p v.rateIndex then { v with rateCtr := 0 }.envStep
  else { v with rateCtr := v.rateCtr + 1 }

/-! ### Waveforms -/

/-- The sawtooth output (R750). -/
def Voice.saw (v : Voice) : BitVec 12 := (v.acc >>> 12).setWidth 12

/-- The triangle output; `srcMsb` is bit 23 of the source voice's accumulator (R750). -/
def Voice.triangle (v : Voice) (srcMsb : Bool) : BitVec 12 :=
  let t := bit v.acc 23 ^^ (bit v.ctrl 2 && srcMsb)
  ((if t then ~~~v.acc else v.acc) >>> 11).setWidth 12

/-- The pulse output (R750). -/
def Voice.pulse (v : Voice) : BitVec 12 := if v.saw.toNat < v.pw.toNat then 0xFFF else 0

/-- The noise output (R750). -/
def Voice.noiseOut (v : Voice) : BitVec 12 :=
  BitVec.ofNat 12 (2048 * b2n (bit v.lfsr 22) + 1024 * b2n (bit v.lfsr 20) + 512 * b2n (bit v.lfsr 16)
    + 256 * b2n (bit v.lfsr 13) + 128 * b2n (bit v.lfsr 11) + 64 * b2n (bit v.lfsr 7)
    + 32 * b2n (bit v.lfsr 4) + 16 * b2n (bit v.lfsr 2))

/-- The selected waveforms combined by AND; none selected gives 0 (R751). -/
def Voice.waveOut (v : Voice) (srcMsb : Bool) : BitVec 12 :=
  if v.ctrl.toNat / 16 = 0 then 0
  else
    (if bit v.ctrl 7 then v.noiseOut else 0xFFF) &&& (if bit v.ctrl 6 then v.pulse else 0xFFF)
      &&& (if bit v.ctrl 5 then v.saw else 0xFFF) &&& (if bit v.ctrl 4 then v.triangle srcMsb else 0xFFF)

/-- The voice output `(wave − $800) · env` (R760). -/
def Voice.output (v : Voice) : Int := ((v.wave.toNat : Int) - 0x800) * (v.env.toNat : Int)

/-! ### Filter and mixer -/

/-- The filter's fixed-point unit: coefficients and filter memory are in units of 2^-20 (log 3). -/
def fixOne : Int := 1048576

/-- `P_PHI2_HZ` (R11). -/
def phi2Hz (m : Model) : Nat :=
  match m with
  | .pal => 985248
  | .ntsc => 1022727

/-- The default `P_SID_FILTER` (R765): (w0, q_inv) for the cutoff `fc` and the resonance `res`, in units of 2^-20.
6588397 is 2π in that unit, rounded. -/
def defaultFilter (m : Model) (fc res : Nat) : Int × Int :=
  ((6588397 * (30 * 2047 + fc * 11970) / (2047 * phi2Hz m) : Nat),
    (15000 * 1048576 / (10605 + 1000 * res) : Nat))

/-- `P_SID_FILTER(fc, res)` (R765). -/
def sidFilter (p : Params) (fc res : Nat) : Int × Int :=
  match p.sidFilter.find? (fun e => e.1 == fc * 16 + res) with
  | some e => e.2
  | none => defaultFilter p.model fc res

/-- The 11-bit cutoff (R765). -/
def Sid.cutoff (s : Sid) : Nat := s.fcHi.toNat * 8 + s.fcLo.toNat

/-- The sum of the voice outputs that `f` selects. -/
def Sid.sumVoices (s : Sid) (f : Nat → Bool) : Int :=
  (if f 0 then s.v1.output else 0) + (if f 1 then s.v2.output else 0) + (if f 2 then s.v3.output else 0)

/-- Step 7, first part: the state-variable filter (R765). -/
def Sid.filter (s : Sid) (p : Params) : Sid :=
  let vi := s.sumVoices (fun n => bit s.resFilt n) * fixOne
  let (w0, qInv) := sidFilter p s.cutoff (s.resFilt.toNat / 16)
  let bp := s.vbp - w0 * s.vhp / fixOne
  let lp := s.vlp - w0 * bp / fixOne
  { s with vbp := bp, vlp := lp, vhp := qInv * bp / fixOne - lp - vi }

/-- Step 7, second part: the mix of R766, times 2^20. -/
def Sid.mix (s : Sid) : Int :=
  let vnf := s.sumVoices fun n => !(bit s.resFilt n) && !(decide (n = 2) && bit s.modeVol 7)
  let vf := (if bit s.modeVol 4 then s.vlp else 0) + (if bit s.modeVol 5 then s.vbp else 0)
    + (if bit s.modeVol 6 then s.vhp else 0)
  (vnf * fixOne + vf) * ((s.modeVol.toNat % 16 : Nat) : Int)

/-- `clamp(v, −32768, 32767)` as a signed 16-bit value (R767). -/
def clamp16 (v : Int) : Word := BitVec.ofInt 16 (max (-32768) (min 32767 v))

/-- The output sample (R767). -/
def Sid.output (s : Sid) : Word := clamp16 (s.mix / (1024 * fixOne))

/-- The three voices after steps 1..6 of a tick (R740). -/
def Sid.voices (s : Sid) (p : Params) : Sid :=
  let a1 := s.v1.edges.accumulate
  let a2 := s.v2.edges.accumulate
  let a3 := s.v3.edges.accumulate
  let e1 := (a1.sync a3.wrapped).noise.envelope p
  let e2 := (a2.sync a1.wrapped).noise.envelope p
  let e3 := (a3.sync a2.wrapped).noise.envelope p
  { s with
    v1 := { e1 with wave := e1.waveOut (bit e3.acc 23) }
    v2 := { e2 with wave := e2.waveOut (bit e1.acc 23) }
    v3 := { e3 with wave := e3.waveOut (bit e2.acc 23) } }

/-- One tick (R740). -/
def Sid.tick (s : Sid) (p : Params) : Sid :=
  let s1 := (s.voices p).filter p
  { s1 with sample := s1.output }

/-! ### Register access -/

/-- A register read (R92, R742), with the paddle bytes of this master cycle. -/
def Sid.read (s : Sid) (p : PinInputs) (r : Nat) : Byte :=
  match r with
  | 0x19 => p.potX
  | 0x1A => p.potY
  | 0x1B => (s.v3.wave >>> 4).setWidth 8
  | 0x1C => s.v3.env
  | _ => 0

/-- A write of one of a voice's seven registers (R90). -/
def Voice.write (v : Voice) (r : Nat) (b : Byte) : Voice :=
  match r with
  | 0 => { v with freq := word (hiByte v.freq) b }
  | 1 => { v with freq := word b (loByte v.freq) }
  | 2 => { v with pw := (v.pw &&& 0xF00) ||| b.setWidth 12 }
  | 3 => { v with pw := (v.pw &&& 0x0FF) ||| (b.setWidth 12 <<< 8) }
  | 4 => { v with ctrl := b }
  | 5 => { v with ad := b }
  | _ => { v with sr := b }

/-- A register write (R90, R91); $19..$1F ignore it. -/
def Sid.write (s : Sid) (r : Nat) (b : Byte) : Sid :=
  if r < 7 then { s with v1 := s.v1.write r b }
  else if r < 14 then { s with v2 := s.v2.write (r - 7) b }
  else if r < 21 then { s with v3 := s.v3.write (r - 14) b }
  else
    match r with
    | 0x15 => { s with fcLo := b.setWidth 3 }
    | 0x16 => { s with fcHi := b }
    | 0x17 => { s with resFilt := b }
    | 0x18 => { s with modeVol := b }
    | _ => s

end Sys2Proof.Machine
end

