-- ==== Sys2Proof/Machine/Vic.lean ====
section
/-! DEFINITION. The VIC-II (62_vic2.md): register access in the CPU phase, and the tick of R663 step by step. -/

namespace Sys2Proof.Machine

/-! ### Geometry and tables -/

/-- Cycles per line (R660). -/
def cyclesPerLine : Model → Nat
  | .pal => 63
  | .ntsc => 65

/-- Lines per frame (R660). -/
def linesPerFrame : Model → Nat
  | .pal => 312
  | .ntsc => 263

/-- The first slot cycle `s_n` of sprite `n` (R690). -/
def spriteSlot (p : Params) (n : Nat) : Nat :=
  match p.model with
  | .pal => if n < 3 then 58 + 2 * n else 2 * n - 5
  | .ntsc =>
    match p.ntscSlots[n]? with
    | some s => s
    | none => Config.ntscSpriteSlot n

/-- The NTSC X coordinate that stands in where the free value is not one that R700 admits. -/
def ntscLinearX (c px : Nat) : Nat := (8 * c + px + 412) % 520

/-- The X coordinate of pixel `px` of Bauer cycle `c` on NTSC (R700): the table supplied, or the free value, which
counts only if it meets the demand of R700. -/
def ntscX (t : Option NtscXpos) (c px : Nat) : Nat :=
  match t with
  | some t => t.table.getD (8 * (c - 1) + px) 0
  | none => if xposOk Config.ntscXpos then Config.ntscXpos.getD (8 * (c - 1) + px) 0 else ntscLinearX c px

/-- The X coordinate of pixel `px` of Bauer cycle `c` (R700). -/
def pixelX (p : Params) (c px : Nat) : Nat :=
  match p.model with
  | .pal => (0x194 + 8 * (c - 1) + px) % 0x1F8
  | .ntsc => ntscX p.ntscXpos c px

/-- Bauer cycle `c` is `d` cycles after cycle `s`, cycle numbers taken modulo the line of `len` cycles (R680). -/
def cycleAt (len c s d : Nat) : Bool := decide (c % len = (s + d) % len)

/-- Bauer cycle `c` lies in `s − 3 .. s + 1`, modulo the line (R680). -/
def cycleAhead (len c s : Nat) : Bool := decide ((c + 3 + len - s % len) % len < 5)

/-! ### Register fields -/

/-- ECM (R71). -/
def Vic.ecm (v : Vic) : Bool := bit v.cr1 6
/-- BMM (R71). -/
def Vic.bmm (v : Vic) : Bool := bit v.cr1 5
/-- DEN (R71). -/
def Vic.den (v : Vic) : Bool := bit v.cr1 4
/-- RSEL (R71). -/
def Vic.rsel (v : Vic) : Bool := bit v.cr1 3
/-- YSCROLL (R71). -/
def Vic.yscroll (v : Vic) : Nat := v.cr1.toNat % 8
/-- MCM (R75). -/
def Vic.mcm (v : Vic) : Bool := bit v.cr2 4
/-- CSEL (R75). -/
def Vic.csel (v : Vic) : Bool := bit v.cr2 3
/-- XSCROLL (R75). -/
def Vic.xscroll (v : Vic) : Nat := v.cr2.toNat % 8
/-- VM13..VM10 (R76). -/
def Vic.vm (v : Vic) : Nat := v.memPtr.toNat / 16
/-- CB13..CB11 (R76). -/
def Vic.cb (v : Vic) : Nat := v.memPtr.toNat / 2 % 8
/-- The Bauer cycle of the position being processed (R662). -/
def Vic.c (v : Vic) : Nat := v.x + 1

/-- Set latch bit `i` of the interrupt register (R77). -/
def Vic.latchIrq (v : Vic) (i : Nat) : Vic := { v with irr := putBit v.irr i true }

/-- Whether the VIC asserts its IRQ producer (R725). -/
def Vic.irqOut (v : Vic) : Bool := (v.irr &&& v.imr) != 0

/-! ### What the VIC sees -/

/-- The memory side of one tick: parameters, RAM, colour RAM, the bank of R201 and the light-pen level. -/
structure VicView where
  params : Params
  ram : Memory
  colour : Memory
  bank : Nat
  lightPen : Bool
deriving DecidableEq, Repr

/-- `VicRead` (R219). -/
def VicView.read (w : VicView) (a : Nat) : Byte :=
  if w.params.cart.kind = .ultimax ∧ a / 0x1000 = 3 then Memory.read w.params.cart.romh (0x1000 + a % 0x1000)
  else if w.bank % 2 = 0 ∧ a / 0x1000 = 1 then Memory.read w.params.charRom (a % 0x1000)
  else Memory.read w.ram (0x4000 * w.bank + a)

/-! ### Steps 1 to 4: frame start, raster compare, bad lines, display state -/

/-- Step 1 (R663): the start of the frame. -/
def Vic.startFrame (v : Vic) : Vic :=
  if v.x = 0 ∧ v.y = 0 then { v with vcbase := 0, denLatch := false, lpDone := false } else v

/-- Step 2 (R664): the raster compare. -/
def Vic.rasterCompare (v : Vic) : Vic :=
  if v.x = 0 ∧ v.y = v.rasterCmp.toNat then v.latchIrq 0 else v

/-- Step 3, first part (R670): the DEN latch. -/
def Vic.latchDen (v : Vic) : Vic := if v.y = 0x30 ∧ v.den = true then { v with denLatch := true } else v

/-- The bad-line condition (R671). -/
def Vic.bad (v : Vic) : Bool :=
  decide (0x30 ≤ v.y) && decide (v.y ≤ 0xF7) && decide (v.y % 8 = v.yscroll) && v.denLatch

/-- Step 4 (R672): the display state. -/
def Vic.display (v : Vic) : Vic := if v.bad then { v with displayState := true } else v

/-! ### Steps 5 and 6: sprite rules and counters -/

/-- Sprite rule 3 (R692): DMA starts. -/
def Sprite.startDma (s : Sprite) (y : Nat) (me ye : Bool) : Sprite :=
  if me && decide (s.posY.toNat = y % 256) && !s.dma then
    { s with dma := true, mcbase := 0, yexpFf := if ye then false else s.yexpFf }
  else s

/-- The sprite rules of R692 for one sprite, in a tick at line `y`, Bauer cycle `c`.  R662 calls the cycle numbers PAL
cycles and gives no others for these rules, so NTSC uses them too (DESIGN CHOICE, log 4). -/
def Sprite.rules (s : Sprite) (y c : Nat) (me ye : Bool) : Sprite :=
  let s1 := if ye then s else { s with yexpFf := true }
  match c with
  | 55 => (if ye then { s1 with yexpFf := !s1.yexpFf } else s1).startDma y me ye
  | 56 => s1.startDma y me ye
  | 58 => { s1 with mc := s1.mcbase, disp := s1.disp || (s1.dma && decide (s1.posY.toNat = y % 256)) }
  | 15 => if s1.yexpFf then { s1 with mcbase := s1.mcbase + 2 } else s1
  | 16 =>
    let s2 := if s1.yexpFf then { s1 with mcbase := s1.mcbase + 1 } else s1
    if s2.mcbase = 63 then { s2 with dma := false, disp := false } else s2
  | _ => s1

/-- Step 5 (R692). -/
def Vic.spriteRules (v : Vic) : Vic :=
  { v with sprites := v.sprites.mapIdx fun n s => s.rules v.y v.c (bit v.enable n) (bit v.expandY n) }

/-- Step 6 (R673): the counters at cycles 14 and 58, on NTSC as on PAL (R662 gives no other numbers; DESIGN CHOICE,
log 4). -/
def Vic.counters (v : Vic) : Vic :=
  match v.c with
  | 14 => { v with vc := v.vcbase, vmli := 0, rc := if v.bad then 0 else v.rc }
  | 58 =>
    let v1 :=
      if v.rc = 7 then { v with vcbase := v.vc, displayState := if v.bad then v.displayState else false } else v
    if v1.displayState then { v1 with rc := v1.rc + 1 } else v1
  | _ => v

/-! ### Step 7: memory accesses -/

/-- The g-access address in display state (R675). -/
def Vic.gAddress (v : Vic) (d : BitVec 12) : Nat :=
  if v.bmm then
    let a := 0x2000 * (v.cb / 4) + 8 * v.vc.toNat + v.rc.toNat
    if v.ecm then ((BitVec.ofNat 14 a) &&& 0x39FF).toNat else a
  else
    0x800 * v.cb + 8 * (if v.ecm then d.toNat % 64 else d.toNat % 256) + v.rc.toNat

/-- The g-access of cycles 16..55 (R675). -/
def Vic.gAccess (v : Vic) (w : VicView) : Vic :=
  if 16 ≤ v.c ∧ v.c ≤ 55 then
    if v.displayState then
      let d := v.vmLine.getD v.vmli.toNat 0
      { v with
        gLine := v.gLine.set (v.c - 16) ⟨w.read (v.gAddress d), d, false⟩, vc := v.vc + 1, vmli := v.vmli + 1 }
    else
      { v with gLine := v.gLine.set (v.c - 16) ⟨w.read (if v.ecm then 0x39FF else 0x3FFF), 0, true⟩ }
  else v

/-- The c-access of cycles 15..54 of a bad line (R674, R220). -/
def Vic.cAccess (v : Vic) (w : VicView) : Vic :=
  if 15 ≤ v.c ∧ v.c ≤ 54 ∧ v.bad = true then
    let colour : Nibble := (Memory.read w.colour v.vc.toNat).setWidth 4
    { v with vmLine := v.vmLine.set v.vmli.toNat (colour ++ w.read (0x400 * v.vm + v.vc.toNat)) }
  else v

/-- One s-access (R691): the byte goes to bits `lo + 7 .. lo` of `shift`, and `mc` counts. -/
def Sprite.sAccess (s : Sprite) (w : VicView) (lo : Nat) : Sprite :=
  let b := w.read (64 * s.ptr.toNat + s.mc.toNat)
  let keep : BitVec 24 := s.shift &&& ~~~((0xFF : BitVec 24) <<< lo)
  { s with shift := keep ||| (b.setWidth 24 <<< lo), mc := s.mc + 1 }

/-- The accesses of one sprite in the first phase of a cycle (R691). -/
def Sprite.firstPhase (s : Sprite) (w : VicView) (len c slot n vm : Nat) : Sprite :=
  if cycleAt len c slot 0 then { s with ptr := w.read (0x400 * vm + 0x3F8 + n) }
  else if cycleAt len c slot 1 && s.dma then s.sAccess w 8
  else s

/-- The accesses of one sprite in the second phase of a cycle (R691). -/
def Sprite.secondPhase (s : Sprite) (w : VicView) (len c slot : Nat) : Sprite :=
  if cycleAt len c slot 0 && s.dma then s.sAccess w 16
  else if cycleAt len c slot 1 && s.dma then s.sAccess w 0
  else s

/-- Step 7 (R674, R675, R691): the first phase, then the second phase.  The refresh accesses of R676 change nothing. -/
def Vic.accesses (v : Vic) (w : VicView) : Vic :=
  let len := cyclesPerLine w.params.model
  let v1 := v.gAccess w
  let v2 :=
    { v1 with
      sprites := v1.sprites.mapIdx fun n (s : Sprite) => s.firstPhase w len v1.c (spriteSlot w.params n) n v1.vm }
  let v3 := v2.cAccess w
  { v3 with sprites := v3.sprites.mapIdx fun n (s : Sprite) => s.secondPhase w len v3.c (spriteSlot w.params n) }

/-! ### Step 8: BA and AEC -/

/-- BA is low (R680). -/
def Vic.baLow (v : Vic) (p : Params) : Bool :=
  (v.bad && decide (12 ≤ v.c) && decide (v.c ≤ 54))
    || v.sprites.anyIdx fun n s => s.dma && cycleAhead (cyclesPerLine p.model) v.c (spriteSlot p n)

/-- AEC is low (R680). -/
def Vic.aecLow (v : Vic) (p : Params) : Bool :=
  (v.bad && decide (15 ≤ v.c) && decide (v.c ≤ 54))
    || v.sprites.anyIdx fun n s =>
        s.dma && (cycleAt (cyclesPerLine p.model) v.c (spriteSlot p n) 0
          || cycleAt (cyclesPerLine p.model) v.c (spriteSlot p n) 1)

/-- Step 8 (R680, R681): `ba_low_count`, then the new BA level. -/
def Vic.stepBa (v : Vic) (p : Params) : Vic :=
  { v with baLowCount := if v.baPrev then 0 else min (v.baLowCount + 1) 3, baPrev := !(v.baLow p) }

/-! ### Step 9: pixels -/

/-- The top comparison of the vertical border (R701). -/
def Vic.topY (v : Vic) : Nat := if v.rsel then 0x33 else 0x37
/-- The bottom comparison of the vertical border (R701). -/
def Vic.bottomY (v : Vic) : Nat := if v.rsel then 0xFB else 0xF7
/-- The left comparison of the main border (R701). -/
def Vic.leftX (v : Vic) : Nat := if v.csel then 0x018 else 0x01F
/-- The right comparison of the main border (R701). -/
def Vic.rightX (v : Vic) : Nat := if v.csel then 0x158 else 0x14F

/-- The vertical border comparison of R702. -/
def Vic.verticalBorder (v : Vic) : Vic :=
  if v.y = v.bottomY then { v with vertBorder := true }
  else if v.y = v.topY ∧ v.den = true then { v with vertBorder := false }
  else v

/-- The border flip-flops before the pixel at X (R702). -/
def Vic.border (v : Vic) (X : Nat) : Vic :=
  let v1 := if X = v.rightX then { v with mainBorder := true } else v
  if X = v1.leftX then
    let v2 := v1.verticalBorder
    if v2.vertBorder then v2 else { v2 with mainBorder := false }
  else v1

/-- The sprite sequencer starts (R694); `sx` is the sprite's X coordinate (R693). -/
def Sprite.start (s : Sprite) (X sx : Nat) : Sprite :=
  if s.disp && !s.seqActive && decide (X = sx) then { s with seqActive := true, seqShift := s.shift, seqQ := 0 } else s

/-- The two bits of the sprite row at pixel index `k` (R695): the pair for multicolour, the single bit (in bit 0)
otherwise.  R695 gives `k` the range 0..23; past it (MXE cleared in mid-row) the bits are a free value. -/
def spriteBits (row : BitVec 24) (multi : Bool) (k : Nat) : BitVec 2 :=
  if k < 24 then
    if multi then (row >>> (22 - 2 * (k / 2))).setWidth 2 else (row >>> (23 - k)).setWidth 2 &&& 1
  else if multi then Config.spriteOverrun row k else Config.spriteOverrun row k &&& 1

/-- The colour of the bits of a sprite pixel; `none` is transparent (R695). -/
def spriteColour (v : Vic) (own : Nibble) (multi : Bool) (m : BitVec 2) : Option Nibble :=
  if multi then
    match m.toNat with
    | 0 => none
    | 1 => some v.mm0
    | 2 => some own
    | _ => some v.mm1
  else if m = 1 then some own else none

/-- One sprite's part of the pixel at X: start, then the pixel, then the sequencer's advance (R694, R695). -/
def Sprite.pixel (s : Sprite) (v : Vic) (n X : Nat) : Sprite × Option Nibble :=
  let s1 := s.start X (256 * b2n (bit v.xMsb n) + s.posX.toNat)
  if s1.seqActive then
    let w := if bit v.expandX n then 2 else 1
    let q := s1.seqQ + 1
    ({ s1 with seqQ := q, seqActive := q.toNat != 24 * w },
      spriteColour v s1.colour (bit v.multi n) (spriteBits s1.seqShift (bit v.multi n) (s1.seqQ.toNat / w)))
  else (s1, none)

/-- The colour and the class (true is foreground) of a graphics pixel with graphics byte `g`, character data `d`
and position `r` in its column (R703, R704). -/
def Vic.graphicsPixel (v : Vic) (g : Byte) (d : BitVec 12) (r : Nat) : Nibble × Bool :=
  let b := bit g (7 - r)
  let m := g.toNat / 2 ^ (6 - 2 * (r / 2)) % 4
  let hi : Nibble := d.extractLsb' 8 4
  match v.ecm, v.bmm, v.mcm with
  | false, false, false => if b then (hi, true) else (v.b0c, false)
  | false, false, true =>
    if bit d 11 then
      match m with
      | 0 => (v.b0c, false)
      | 1 => (v.b1c, false)
      | 2 => (v.b2c, true)
      | _ => (hi &&& 7, true)
    else if b then (hi &&& 7, true)
    else (v.b0c, false)
  | false, true, false => if b then (d.extractLsb' 4 4, true) else (d.extractLsb' 0 4, false)
  | false, true, true =>
    match m with
    | 0 => (v.b0c, false)
    | 1 => (d.extractLsb' 4 4, false)
    | 2 => (d.extractLsb' 0 4, true)
    | _ => (hi, true)
  | true, false, false =>
    if b then (hi, true)
    else
      match d.toNat / 64 % 4 with
      | 0 => (v.b0c, false)
      | 1 => (v.b1c, false)
      | 2 => (v.b2c, false)
      | _ => (v.b3c, false)
  | true, false, true => (0, if bit d 11 then decide (2 ≤ m) else b)
  | true, true, false => (0, b)
  | true, true, true => (0, decide (2 ≤ m))

/-- The graphics colour and class of the pixel at X (R703, R705). -/
def Vic.graphics (v : Vic) (X : Nat) : Nibble × Bool :=
  if 0x18 + v.xscroll ≤ X ∧ X < 0x18 + v.xscroll + 320 then
    let i := X - 0x18 - v.xscroll
    let cell := v.gLine.getD (i / 8) ⟨0, 0, false⟩
    v.graphicsPixel cell.g cell.d (i % 8)
  else (v.b0c, false)

/-- The lowest-numbered sprite with a pixel that is not transparent, and its colour (R710). -/
def firstSprite (px : Oct (Option Nibble)) : Option (Nat × Nibble) :=
  match px with
  | ⟨some c, _, _, _, _, _, _, _⟩ => some (0, c)
  | ⟨none, some c, _, _, _, _, _, _⟩ => some (1, c)
  | ⟨none, none, some c, _, _, _, _, _⟩ => some (2, c)
  | ⟨none, none, none, some c, _, _, _, _⟩ => some (3, c)
  | ⟨none, none, none, none, some c, _, _, _⟩ => some (4, c)
  | ⟨none, none, none, none, none, some c, _, _⟩ => some (5, c)
  | ⟨none, none, none, none, none, none, some c, _⟩ => some (6, c)
  | ⟨none, none, none, none, none, none, none, some c⟩ => some (7, c)
  | ⟨none, none, none, none, none, none, none, none⟩ => none

/-- Compositing (R710): `fg` is the graphics class. -/
def compose (priority : Byte) (px : Oct (Option Nibble)) (gfx : Nibble) (fg : Bool) : Nibble :=
  match firstSprite px with
  | some (n, c) => if !(bit priority n) || !fg then c else gfx
  | none => gfx

/-- At least two of the eight bits are set. -/
def twoOrMore (m : Byte) : Bool := (m &&& (m - 1)) != 0

/-- Collisions at one pixel (R715, R716): `m` is the set of sprites shown there. -/
def Vic.collide (v : Vic) (m : Byte) (fg : Bool) : Vic :=
  let v1 :=
    if twoOrMore m then
      { (if v.collSprite = 0 then v.latchIrq 2 else v) with collSprite := v.collSprite ||| m }
    else v
  if fg && m != 0 then
    { (if v1.collBack = 0 then v1.latchIrq 1 else v1) with collBack := v1.collBack ||| m }
  else v1

/-- Some sprite shows a pixel or may start to. -/
def Vic.spritesLive (v : Vic) : Bool := v.sprites.anyIdx fun _ s => s.disp || s.seqActive

/-- One pixel, at X: border, sprites, graphics, collisions, output (R702..R716). -/
def Vic.pixel (v : Vic) (X : Nat) : Vic × Nibble :=
  let v1 := v.border X
  let gfx := v1.graphics X
  if v1.spritesLive then
    let r := v1.sprites.mapIdx fun n s => s.pixel v1 n X
    let px := r.mapIdx fun _ (q : Sprite × Option Nibble) => q.2
    let m := ofBits fun n => (px.get n).isSome
    (({ v1 with sprites := r.mapIdx fun _ (q : Sprite × Option Nibble) => q.1 }).collide m gfx.2,
      if v1.mainBorder then v1.ec else compose v1.priority px gfx.1 gfx.2)
  else (v1, if v1.mainBorder then v1.ec else gfx.1)

/-- Pixels `px`, `px + 1`, … of a cycle, `n` of them, into a cell of 8 nibbles. -/
def Vic.pixelRow (p : Params) : Nat → Nat → Vic → BitVec 32 → Vic × BitVec 32
  | 0, _, v, cell => (v, cell)
  | n + 1, px, v, cell =>
    match v.pixel (pixelX p v.c px) with
    | (v1, colour) => Vic.pixelRow p n (px + 1) v1 (cell ||| (colour.setWidth 32 <<< (4 * px)))

/-- Step 9: the vertical border at the last cycle of the line, then the 8 pixels (R702, R712). -/
def Vic.pixels (v : Vic) (p : Params) : Vic × BitVec 32 :=
  Vic.pixelRow p 8 0 (if v.c = cyclesPerLine p.model then v.verticalBorder else v) 0

/-! ### Steps 10 and 12: light pen and advance -/

/-- Step 10 (R720). -/
def Vic.lightPen (v : Vic) (p : Params) (level : Bool) : Vic :=
  let v1 :=
    if v.lpPrev && !level && !v.lpDone then
      { v.latchIrq 3 with
        lpx := BitVec.ofNat 8 (pixelX p v.c 0 / 2), lpy := BitVec.ofNat 8 v.y, lpDone := true }
    else v
  { v1 with lpPrev := level }

/-- Step 12 (R661): the next position, and whether the frame ended (R727). -/
def Vic.advance (v : Vic) (p : Params) : Vic × Bool :=
  if v.x + 1 < cyclesPerLine p.model then ({ v with x := v.x + 1 }, false)
  else if v.y + 1 < linesPerFrame p.model then ({ v with x := 0, y := v.y + 1 }, false)
  else ({ v with x := 0, y := 0 }, true)

/-! ### The tick -/

/-- What a tick gives: the new VIC, the 8 pixels, AEC and vsync.  BA is `baPrev` of the new VIC and the IRQ
producer is its `irqOut`. -/
structure VicOut where
  vic : Vic
  cell : BitVec 32
  aec : Bool
  vsync : Bool
deriving DecidableEq, Repr

/-- Steps 1 to 7 of R663. -/
def Vic.fetchSteps (v : Vic) (w : VicView) : Vic :=
  (v.startFrame.rasterCompare.latchDen.display.spriteRules.counters).accesses w

/-- One tick (R663). -/
def Vic.tick (v : Vic) (w : VicView) : VicOut :=
  let v7 := v.fetchSteps w
  let v8 := v7.stepBa w.params
  match v8.pixels w.params with
  | (v9, cell) =>
    match (v9.lightPen w.params w.lightPen).advance w.params with
    | (v12, vsync) => ⟨v12, cell, !(v7.aecLow w.params), vsync⟩

/-! ### Register access (R665, R70..R81) -/

/-- `ry`: the raster line of the tick just processed (R661). -/
def Vic.ry (v : Vic) (p : Params) : Nat :=
  if v.x = 0 then (v.y + linesPerFrame p.model - 1) % linesPerFrame p.model else v.y

/-- The colour register at offset $20..$2E (R80). -/
def Vic.colourReg (v : Vic) (r : Nat) : Nibble :=
  match r with
  | 0x20 => v.ec
  | 0x21 => v.b0c
  | 0x22 => v.b1c
  | 0x23 => v.b2c
  | 0x24 => v.b3c
  | 0x25 => v.mm0
  | 0x26 => v.mm1
  | _ => (v.sprites.get (r - 0x27)).colour

/-- The value of a register read (R665). -/
def Vic.readValue (v : Vic) (p : Params) (r : Nat) : Byte :=
  if r < 0x10 then
    let s := v.sprites.get (r / 2)
    if r % 2 = 0 then s.posX else s.posY
  else if 0x20 ≤ r then
    if r ≤ 0x2E then (v.colourReg r).setWidth 8 ||| 0xF0 else 0xFF
  else
    match r with
    | 0x10 => v.xMsb
    | 0x11 => putBit v.cr1 7 (decide (256 ≤ v.ry p))
    | 0x12 => BitVec.ofNat 8 (v.ry p)
    | 0x13 => v.lpx
    | 0x14 => v.lpy
    | 0x15 => v.enable
    | 0x16 => v.cr2 ||| 0xC0
    | 0x17 => v.expandY
    | 0x18 => v.memPtr ||| 0x01
    | 0x19 => putBit (v.irr.setWidth 8 ||| 0x70) 7 v.irqOut
    | 0x1A => v.imr.setWidth 8 ||| 0xF0
    | 0x1B => v.priority
    | 0x1C => v.multi
    | 0x1D => v.expandX
    | 0x1E => v.collSprite
    | _ => v.collBack

/-- The side effect of a register read (R665, R717). -/
def Vic.readEffect (v : Vic) (r : Nat) : Vic :=
  match r with
  | 0x1E => { v with collSprite := 0 }
  | 0x1F => { v with collBack := 0 }
  | _ => v

/-- A write of the colour register at offset $20..$2E (R80). -/
def Vic.writeColour (v : Vic) (r : Nat) (b : Nibble) : Vic :=
  match r with
  | 0x20 => { v with ec := b }
  | 0x21 => { v with b0c := b }
  | 0x22 => { v with b1c := b }
  | 0x23 => { v with b2c := b }
  | 0x24 => { v with b3c := b }
  | 0x25 => { v with mm0 := b }
  | 0x26 => { v with mm1 := b }
  | _ => { v with sprites := v.sprites.set (r - 0x27) { v.sprites.get (r - 0x27) with colour := b } }

/-- A register write (R665); reserved bits are not stored. -/
def Vic.write (v : Vic) (r : Nat) (b : Byte) : Vic :=
  if r < 0x10 then
    let s := v.sprites.get (r / 2)
    { v with sprites := v.sprites.set (r / 2) (if r % 2 = 0 then { s with posX := b } else { s with posY := b }) }
  else if 0x20 ≤ r then
    if r ≤ 0x2E then v.writeColour r (b.setWidth 4) else v
  else
    match r with
    | 0x10 => { v with xMsb := b }
    | 0x11 => { v with cr1 := b &&& 0x7F, rasterCmp := putBit v.rasterCmp 8 (bit b 7) }
    | 0x12 => { v with rasterCmp := putBit (b.setWidth 9) 8 (bit v.rasterCmp 8) }
    | 0x15 => { v with enable := b }
    | 0x16 => { v with cr2 := b &&& 0x3F }
    | 0x17 => { v with expandY := b }
    | 0x18 => { v with memPtr := b &&& 0xFE }
    | 0x19 => { v with irr := v.irr &&& ~~~(b.setWidth 4) }
    | 0x1A => { v with imr := b.setWidth 4 }
    | 0x1B => { v with priority := b }
    | 0x1C => { v with multi := b }
    | 0x1D => { v with expandX := b }
    | _ => v

end Sys2Proof.Machine
end

