-- ==== Sys2Proof/Machine/Mmu.lean ====
section
/-! DEFINITION. The MMU and the chip bus fabric (20_memory.md): the PLA table, the I/O dispatch, and one read or one
write of the CPU's address space. -/

namespace Sys2Proof.Machine

/-- The banks of R208. -/
inductive Bank where
  | ram
  | basic
  | kernal
  | char
  | roml
  | romh
  | io
  | openBus
deriving DecidableEq, Repr

/-- One row of the PLA truth table: the bank of each area of R208. -/
structure PlaRow where
  /-- $0000–$0FFF. -/
  a0 : Bank
  /-- $1000–$7FFF. -/
  a1 : Bank
  /-- $8000–$9FFF. -/
  a8 : Bank
  /-- $A000–$BFFF. -/
  aA : Bank
  /-- $C000–$CFFF. -/
  aC : Bank
  /-- $D000–$DFFF. -/
  aD : Bank
  /-- $E000–$FFFF. -/
  aE : Bank
deriving DecidableEq, Repr

/-- The PLA truth table (R208). -/
def plaRow (mode : Nat) : PlaRow :=
  match mode with
  | 31 => ⟨.ram, .ram, .ram, .basic, .ram, .io, .kernal⟩
  | 30 => ⟨.ram, .ram, .ram, .ram, .ram, .io, .kernal⟩
  | 29 => ⟨.ram, .ram, .ram, .ram, .ram, .io, .ram⟩
  | 28 => ⟨.ram, .ram, .ram, .ram, .ram, .ram, .ram⟩
  | 27 => ⟨.ram, .ram, .ram, .basic, .ram, .char, .kernal⟩
  | 26 => ⟨.ram, .ram, .ram, .ram, .ram, .char, .kernal⟩
  | 25 => ⟨.ram, .ram, .ram, .ram, .ram, .char, .ram⟩
  | 24 => ⟨.ram, .ram, .ram, .ram, .ram, .ram, .ram⟩
  | 15 => ⟨.ram, .ram, .roml, .basic, .ram, .io, .kernal⟩
  | 14 => ⟨.ram, .ram, .ram, .ram, .ram, .io, .kernal⟩
  | 13 => ⟨.ram, .ram, .ram, .ram, .ram, .io, .ram⟩
  | 12 => ⟨.ram, .ram, .ram, .ram, .ram, .ram, .ram⟩
  | 11 => ⟨.ram, .ram, .roml, .basic, .ram, .char, .kernal⟩
  | 10 => ⟨.ram, .ram, .ram, .ram, .ram, .char, .kernal⟩
  | 9 => ⟨.ram, .ram, .ram, .ram, .ram, .char, .ram⟩
  | 8 => ⟨.ram, .ram, .ram, .ram, .ram, .ram, .ram⟩
  | 7 => ⟨.ram, .ram, .roml, .romh, .ram, .io, .kernal⟩
  | 6 => ⟨.ram, .ram, .ram, .romh, .ram, .io, .kernal⟩
  | 5 => ⟨.ram, .ram, .ram, .ram, .ram, .io, .ram⟩
  | 4 => ⟨.ram, .ram, .ram, .ram, .ram, .ram, .ram⟩
  | 3 => ⟨.ram, .ram, .roml, .romh, .ram, .char, .kernal⟩
  | 2 => ⟨.ram, .ram, .ram, .romh, .ram, .char, .kernal⟩
  | 1 => ⟨.ram, .ram, .ram, .ram, .ram, .ram, .ram⟩
  | 0 => ⟨.ram, .ram, .ram, .ram, .ram, .ram, .ram⟩
  | _ => ⟨.ram, .openBus, .roml, .openBus, .openBus, .io, .romh⟩

/-- The MemoryMap (R208, R209): the bank of region `addr >> 12` in a mode. -/
def memoryMap (mode region : Nat) : Bank :=
  match region with
  | 0 => (plaRow mode).a0
  | 8 => (plaRow mode).a8
  | 9 => (plaRow mode).a8
  | 10 => (plaRow mode).aA
  | 11 => (plaRow mode).aA
  | 12 => (plaRow mode).aC
  | 13 => (plaRow mode).aD
  | 14 => (plaRow mode).aE
  | 15 => (plaRow mode).aE
  | _ => (plaRow mode).a1

/-- The bank an address selects now (R209: the map is a plain function of the mode bits). -/
def bankAt (s : State) (a : Word) : Bank := memoryMap (mmuMode s.params.cart.kind s.port) (a.toNat / 0x1000)

/-- Ultimax: modes 16..23, whose ROML and ROMH writes are discarded (R211). -/
def isUltimax (s : State) : Bool := decide (mmuMode s.params.cart.kind s.port / 8 = 2)

/-! ### I/O dispatch (R212) -/

/-- The devices of the IO bank, with the register or cell that an address decodes to. -/
inductive IoTarget where
  | vic (reg : Nat)
  | sid (reg : Nat)
  | colour (cell : Nat)
  | cia1 (reg : Nat)
  | cia2 (reg : Nat)
  | expansion
deriving DecidableEq, Repr

/-- The device decode (R212) of an address in $D000..$DFFF. -/
def ioTarget (n : Nat) : IoTarget :=
  match n / 0x100 % 16 with
  | 0 => .vic (n % 0x40)
  | 1 => .vic (n % 0x40)
  | 2 => .vic (n % 0x40)
  | 3 => .vic (n % 0x40)
  | 4 => .sid (n % 0x20)
  | 5 => .sid (n % 0x20)
  | 6 => .sid (n % 0x20)
  | 7 => .sid (n % 0x20)
  | 8 => .colour (n % 0x400)
  | 9 => .colour (n % 0x400)
  | 10 => .colour (n % 0x400)
  | 11 => .colour (n % 0x400)
  | 12 => .cia1 (n % 0x10)
  | 13 => .cia2 (n % 0x10)
  | _ => .expansion

/-- The value an I/O read returns (R212..R215). -/
def ioValue (s : State) (t : IoTarget) : Byte :=
  match t with
  | .vic r => s.vic.readValue s.params r
  | .sid r => s.sid.read s.inputs.pins r
  | .colour i => (s.bus &&& 0xF0) ||| (Memory.read s.colour i &&& 0x0F)
  | .cia1 r =>
    s.cia1.readValue r (ofBits fun i => cia1PinA s.inputs.slow s.cia1 i)
      (ofBits fun i => cia1PinB s.inputs.slow s.cia1 i)
  | .cia2 r =>
    s.cia2.readValue r (ofBits fun i => cia2PinA s.inputs.pins s.cia2 i) (ofBits fun i => cia2PinB s.cia2 i)
  | .expansion => s.bus

/-- The side effect of an I/O read (R207). -/
def ioReadEffect (s : State) (t : IoTarget) : State :=
  match t with
  | .vic r => { s with vic := s.vic.readEffect r }
  | .cia1 r =>
    { s with cia1 := s.cia1.readEffect r, pins := if r = 13 then { s.pins with irqCia1 := false } else s.pins }
  | .cia2 r =>
    { s with cia2 := s.cia2.readEffect r, pins := if r = 13 then { s.pins with nmiCia2 := false } else s.pins }
  | .sid _ => s
  | .colour _ => s
  | .expansion => s

/-- An I/O write (R212, R213); the interrupt producers follow the ICR mask (R640), $D019 and $D01A (R725) at once. -/
def ioWrite (s : State) (t : IoTarget) (v : Byte) : State :=
  match t with
  | .vic r =>
    let c := s.vic.write r v
    { s with vic := c, pins := if r = 0x19 ∨ r = 0x1A then { s.pins with irqVic := c.irqOut } else s.pins }
  | .sid r => { s with sid := s.sid.write r v }
  | .colour i => { s with colour := Memory.write s.colour i (v &&& 0x0F) }
  | .cia1 r =>
    let c := s.cia1.write r v
    { s with cia1 := c, pins := if r = 13 then { s.pins with irqCia1 := c.line } else s.pins }
  | .cia2 r =>
    let c := s.cia2.write r v
    { s with cia2 := c, pins := if r = 13 then { s.pins with nmiCia2 := c.line } else s.pins }
  | .expansion => s

/-! ### One access -/

/-- The value a CPU read of `a` returns now (R210), without its side effect. -/
def peek (s : State) (a : Word) : Byte :=
  if a = 0 then s.port.ddr
  else if a = 1 then s.port.level s.inputs.slow.cassSense
  else
    match bankAt s a with
    | .ram => Memory.read s.ram a.toNat
    | .basic => Memory.read s.params.basicRom (a.toNat - 0xA000)
    | .kernal => Memory.read s.params.kernalRom (a.toNat - 0xE000)
    | .char => Memory.read s.params.charRom (a.toNat - 0xD000)
    | .roml => Memory.read s.params.cart.roml (a.toNat - 0x8000)
    | .romh => Memory.read s.params.cart.romh (a.toNat % 0x2000)
    | .io => ioValue s (ioTarget a.toNat)
    | .openBus => s.bus

/-- The side effect of a CPU read of `a` (R207). -/
def readEffect (s : State) (a : Word) : State :=
  if a = 0 ∨ a = 1 then s
  else
    match bankAt s a with
    | .io => ioReadEffect s (ioTarget a.toNat)
    | .ram => s
    | .basic => s
    | .kernal => s
    | .char => s
    | .roml => s
    | .romh => s
    | .openBus => s

/-- `MemRead(a, 1)` (R210): the value, the side effect, and the bus latch. -/
def memRead (a : Word) (s : State) : Byte × State := (peek s a, { readEffect s a with bus := peek s a })

/-- RAM takes a byte. -/
def ramWrite (s : State) (a : Word) (v : Byte) : State := { s with ram := Memory.write s.ram a.toNat v }

/-- The destination of a CPU write (R211). -/
def writeEffect (s : State) (a : Word) (v : Byte) : State :=
  if a = 0 then { s with port := { s.port with ddr := v } }
  else if a = 1 then { s with port := { s.port with data := v } }
  else
    match bankAt s a with
    | .ram => ramWrite s a v
    | .basic => ramWrite s a v
    | .kernal => ramWrite s a v
    | .char => ramWrite s a v
    | .roml => if isUltimax s then s else ramWrite s a v
    | .romh => if isUltimax s then s else ramWrite s a v
    | .io => ioWrite s (ioTarget a.toNat) v
    | .openBus => s

/-- `MemWrite(a, 1, v)` (R211): the effect, and the bus latch. -/
def memWrite (a : Word) (v : Byte) (s : State) : State := { writeEffect s a v with bus := v }

end Sys2Proof.Machine
end

