-- ==== Sys2Proof/Machine/Clock.lean ====
section
/-! DEFINITION. The master cycle (64_clock_bus.md R781) and the CPU's bus cycle on top of it (R782..R786): each CPU
bus cycle runs whole master cycles until one of them lets the CPU have the bus. -/

namespace Sys2Proof.Machine

/-! ### Phase 1: inputs and the VIC -/

/-- The external inputs take their levels of this master cycle (R803). -/
def inputPhase (s : State) : State :=
  let r := dueBy s.cycle s.inputs.pins s.inputs.schedule
  { s with inputs := { s.inputs with pins := r.1, schedule := r.2 } }

/-- Write one cell of the frame being built (R712): the list stays sorted, highest key first, one cell per key. -/
def putCell (k : Nat) (c : BitVec 32) : List (Nat × BitVec 32) → List (Nat × BitVec 32)
  | [] => [(k, c)]
  | (j, d) :: rest =>
    if j < k then (k, c) :: (j, d) :: rest else if j = k then (k, c) :: rest else (j, d) :: putCell k c rest

/-- What the VIC sees in this master cycle (R201, R219, R720). -/
def vicView (s : State) : VicView :=
  { params := s.params, ram := s.ram, colour := s.colour, bank := vicBank s.inputs.pins s.cia2
    lightPen := lightPenIn s }

/-- What a VIC tick makes of the state: BA, AEC, the VIC's IRQ producer, the vsync event and a cell of the frame. -/
def putVic (o : VicOut) (s : State) : State :=
  { s with
    vic := o.vic
    pins := { s.pins with ba := o.vic.baPrev, aec := o.aec, irqVic := o.vic.irqOut }
    video :=
      { s.video with
        back := putCell (cyclesPerLine s.params.model * s.vic.y + s.vic.x) o.cell s.video.back, vsync := o.vsync } }

/-- Phase 1 (R781): the VIC tick. -/
def vicPhase (s : State) : State := putVic (s.vic.tick (vicView s)) s

/-! ### Phase 2: the CPU -/

/-- A bus operation of the CPU: one read or one write (R15). -/
inductive BusOp where
  | read (a : Word)
  | write (a : Word) (v : Byte)
deriving DecidableEq, Repr

/-- The operation is a write. -/
def BusOp.isWrite : BusOp → Bool
  | .read _ => false
  | .write _ _ => true

/-- The address of the operation. -/
def BusOp.addr : BusOp → Word
  | .read a => a
  | .write a _ => a

/-- Phase 2a (R570): CPU-RESET falls in this master cycle. -/
def resetEdge (s : State) : Bool := s.latches.resetPrev && !s.inputs.pins.reset

/-- Phases 2a and 2b: the edge detectors of CPU-RESET (R570) and NMI (R554). -/
def detectEdges (s : State) : State :=
  { s with
    latches :=
      { s.latches with
        resetPrev := s.inputs.pins.reset
        nmiEdge := s.latches.nmiEdge || (s.latches.nmiPrev && nmiLow s)
        nmiPrev := !nmiLow s } }

/-- The CPU has the bus for this operation (R782). -/
def granted (op : BusOp) (s : State) : Bool :=
  s.pins.aec && (op.isWrite || s.pins.ba || decide (s.vic.baLowCount < 3))

/-- The bus access of an operation: the byte moved, and the state after the MMU dispatch (R210, R211). -/
def access (op : BusOp) (s : State) : Byte × State :=
  match op with
  | .read a => memRead a s
  | .write a v => (v, memWrite a v s)

/-- The interrupt sample of R551. -/
def sample (s : State) : Poll := ⟨s.latches.nmiEdge, irqLow s && !s.regs.p.i⟩

/-- Phases 2c and 2d of a cycle in which the CPU has the bus: the access, the register update `upd` it causes, the
interrupt sample (R551) and the tick callback (R786).  `micro` takes the byte moved (R47). -/
def busPhase (op : BusOp) (upd : Byte → Regs → Regs) (s : State) : Byte × State :=
  let r := access op s
  let t := { r.2 with regs := upd r.1 r.2.regs }
  (r.1,
    { t with
      latches :=
        { t.latches with
          stalled := false, poll2 := t.latches.poll1, poll1 := sample t
          micro := { t.latches.micro with moved := t.latches.micro.moved ++ [r.1] } }
      ticks := ⟨s.cycle, op.addr, r.1, op.isWrite⟩ :: t.ticks })

/-- Phase 2 of a stalled cycle (R783). -/
def stallPhase (s : State) : State := { s with latches := { s.latches with stalled := true } }

/-! ### Phases 3 to 6: CIAs, SID, end of cycle -/

/-- The datasette player (R808): it counts only with the motor on and play pressed. -/
def Tape.advance (t : Tape) : Tape :=
  match t.pulses with
  | [] => { t with level := true }
  | len :: rest =>
    if t.count + 1 < len then { t with count := t.count + 1, level := !(decide (t.count < len / 2)) }
    else { pulses := rest, count := 0, level := !(decide (t.count < len / 2)) }

/-- The tape player's part of the cycle, before CIA1 sees the cassette-read line. -/
def tapePhase (s : State) : State :=
  if motorOn s && !s.inputs.slow.cassSense then { s with tape := s.tape.advance } else s

/-- Phase 3: the CIA1 tick (R600, R632). -/
def cia1Phase (s : State) : State :=
  let p := s.inputs.pins
  let c := s.cia1.tick ⟨p.cnt1, p.sp1, cassRead s, todPulse s.params.todPeriod s.cycle p.tod1⟩
  { s with cia1 := c, pins := { s.pins with irqCia1 := c.line } }

/-- Phase 4: the CIA2 tick (R600, R634). -/
def cia2Phase (s : State) : State :=
  let p := s.inputs.pins
  let c := s.cia2.tick ⟨p.cnt2, p.sp2, p.flag2, todPulse s.params.todPeriod s.cycle p.tod2⟩
  { s with cia2 := c, pins := { s.pins with nmiCia2 := c.line } }

/-- Phase 5: the SID tick, and its sample (R740, R804). -/
def sidPhase (s : State) : State :=
  let d := s.sid.tick s.params
  { s with sid := d, audio := d.sample :: s.audio }

/-- Phase 6: at vsync the frame is handed over and the input queue drained (R727, R803, R805); the counter advances. -/
def endPhase (s : State) : State :=
  let s1 :=
    if s.video.vsync then
      let r := dueBy s.cycle s.inputs.slow s.inputs.queue
      { s with
        video := { s.video with front := s.video.back, back := [], frames := s.video.frames + 1 }
        inputs := { s.inputs with slow := r.1, queue := r.2 } }
    else s
  { s1 with cycle := s1.cycle + 1 }

/-- Phases 3 to 6. -/
def devicePhases (s : State) : State := endPhase (sidPhase (cia2Phase (cia1Phase (tapePhase s))))

/-- The reset of every component at the end of the cycle in which CPU-RESET fell (R570, R820). -/
def resetAll (s : State) : State :=
  { s with
    regs := Regs.reset s.regs.pc, latches := Latches.reset s.latches.resetPrev, port := Port.reset
    ram := s.params.ramInit, colour := colourInit s.params.ramInit, bus := 0xFF, pins := Pins.reset
    cia1 := Cia.reset, cia2 := Cia.reset, vic := Vic.reset, sid := Sid.reset }

/-! ### One master cycle, and one bus cycle -/

/-- What a master cycle gives: the state, the byte moved, whether the CPU had the bus, whether CPU-RESET fell. -/
structure CycleOut where
  state : State
  value : Byte
  done : Bool
  reset : Bool
deriving DecidableEq, Repr

/-- The state at the CPU's access in the next master cycle: inputs, the VIC tick and the edge detectors have run. -/
def cpuView (s : State) : State := detectEdges (vicPhase (inputPhase s))

/-- `step_cycle()` (R781) with `op` as the CPU's next bus operation (R782).  `force` gives the CPU the bus in any
case; it is set only where `busLoop` gives up. -/
def masterCycle (force : Bool) (op : BusOp) (upd : Byte → Regs → Regs) (s : State) : CycleOut :=
  let edge := resetEdge (inputPhase s)
  let s1 := cpuView s
  let go := force || granted op s1
  let r := if go then busPhase op upd s1 else (0, stallPhase s1)
  let s2 := devicePhases r.2
  ⟨if edge then resetAll s2 else s2, r.1, go, edge⟩

/-- Why a bus sequence ends before its last cycle. -/
inductive Abort where
  /-- CPU-RESET fell: the instruction is abandoned at the cycle boundary (R572). -/
  | reset
deriving DecidableEq, Repr

/-- What a bus cycle, or a sequence of them, answers: a value and the state after it, or the state in which it was cut
short. -/
abbrev BusResult (α : Type) := EStateM.Result Abort State α

/-- Repeat the bus cycle in each master cycle until the CPU has the bus (R783).  The VIC never withholds the bus for
`stallFuel` master cycles (log 14), so the last clause is never reached. -/
def busLoop (op : BusOp) (upd : Byte → Regs → Regs) : Nat → State → BusResult Byte
  | 0, s =>
    let o := masterCycle true op upd s
    if o.reset then .error .reset o.state else .ok o.value o.state
  | n + 1, s =>
    let o := masterCycle false op upd s
    if o.reset then .error .reset o.state
    else if o.done then .ok o.value o.state
    else busLoop op upd n o.state

/-- More master cycles than the VIC can ever hold the bus. -/
def stallFuel : Nat := 256

/-- One CPU bus cycle, with the register update that takes effect at its end (R334). -/
def busCycle (op : BusOp) (upd : Byte → Regs → Regs) (s : State) : BusResult Byte := busLoop op upd stallFuel s

/-! ### Sequences of bus cycles -/

/-- A sequence of CPU bus cycles, as data: what the CPU does next is known before it runs (R782), so that a sequence
can be run to its end (`Bus.live`) or taken up again in its middle (`Bus.advance`). -/
inductive Bus (α : Type) where
  /-- The sequence has ended. -/
  | done (a : α)
  /-- Look at the registers. -/
  | look (k : Regs → Bus α)
  /-- Change the registers at the end of the bus cycle before. -/
  | set (f : Regs → Regs) (k : Bus α)
  /-- One bus cycle; `upd` is its register update, and what follows depends on the byte moved. -/
  | cycle (op : BusOp) (upd : Byte → Regs → Regs) (k : Byte → Bus α)

/-- One sequence after another. -/
def Bus.bind {α β : Type} : Bus α → (α → Bus β) → Bus β
  | .done a, f => f a
  | .look k, f => .look fun r => (k r).bind f
  | .set g k, f => .set g (k.bind f)
  | .cycle op upd k, f => .cycle op upd fun v => (k v).bind f

/-- One sequence after another, where the first has no result that matters. -/
def Bus.andThen {α β : Type} (m : Bus α) (k : Bus β) : Bus β := m.bind fun _ => k

/-- Run a sequence to its end; CPU-RESET cuts it short (R572). -/
def Bus.live {α : Type} : Bus α → State → BusResult α
  | .done a, s => .ok a s
  | .look k, s => (k s.regs).live s
  | .set f k, s => k.live { s with regs := f s.regs }
  | .cycle op upd k, s =>
    match busCycle op upd s with
    | .ok v t => (k v).live t
    | .error e t => .error e t

/-- What is left of a sequence that began with the registers `r` and whose bus cycles have moved these bytes, and the
registers it stands at.  What is left is at its end or at its next bus cycle. -/
def Bus.advance {α : Type} : Bus α → Regs → List Byte → Bus α × Regs
  | .done a, r, _ => (.done a, r)
  | .look k, r, l => (k r).advance r l
  | .set f k, r, l => k.advance (f r) l
  | .cycle op upd k, r, [] => (.cycle op upd k, r)
  | .cycle _ upd k, r, v :: l => (k v).advance (upd v r) l

/-- A bus read whose byte is used: `upd` sees it. -/
def readCycle (a : Word) (upd : Byte → Regs → Regs) : Bus Byte := .cycle (.read a) upd .done

/-- A bus read that is the last of its sequence. -/
def lastRead (a : Word) (upd : Byte → Regs → Regs) : Bus Unit := .cycle (.read a) upd fun _ => .done ()

/-- `DummyRead` (R15): the byte is discarded, the side effects happen. -/
def dummyCycle (a : Word) : Bus Unit := lastRead a fun _ r => r

/-- `MemWrite` as one bus cycle, with a register update at its end. -/
def writeCycle (a : Word) (v : Byte) (upd : Regs → Regs) : Bus Unit :=
  .cycle (.write a v) (fun _ r => upd r) fun _ => .done ()

end Sys2Proof.Machine
end

