-- ==== Sys2Proof/Machine/Operands.lean ====
section
/-! DEFINITION. Addressing modes (40_addressing_load_store.md R320..R329) with the bus cycles of each class
(R330..R332), from the cycle after the operand bytes have been fetched. -/

namespace Sys2Proof.Machine

/-! ### Effective addresses -/

/-- Zero page indexed (R322): the sum wraps inside page $00. -/
def zpIndexed (zp i : Byte) : Word := zext16 (zp + i)

/-- Absolute indexed (R324), and the last step of indirect indexed (R326). -/
def indexed (base : Word) (i : Byte) : Word := base + zext16 i

/-- The address before the carry is added (R324, R326). -/
def unfixed (base : Word) (i : Byte) : Word := word (hiByte base) (loByte base + i)

/-- The index crosses a page (R324, R326). -/
def crossed (base : Word) (i : Byte) : Bool := hiByte (indexed base i) != hiByte base

/-- The address of an indirect pointer's high byte: it wraps inside the page (R325, R326, R329). -/
def pointerHi (ptr : Word) : Word := word (hiByte ptr) (loByte ptr + 1)

/-- A byte read whose value is kept in a latch. -/
def readByte (a : Word) : Bus Byte := readCycle a fun _ r => r

/-- The two pointer reads of an indirect mode (R325, R326, R329). -/
def readPointer (ptr : Word) : Bus Word :=
  (readByte ptr).bind fun lo => (readByte (pointerHi ptr)).bind fun hi => .done (word hi lo)

/-- The effective address of `(zp,X)` with its cycles 3 to 5 (R325, R330). -/
def addrIzx (zp : Byte) : Bus Word :=
  (dummyCycle (zext16 zp)).andThen <| .look fun r => readPointer (zpIndexed zp r.x)

/-! ### Read class (R330) -/

/-- `imm`: the operand was fetched at cycle 2, which is the last cycle. -/
def immediate (f : Regs → Regs) : Bus Unit := .set f (.done ())

/-- The last cycle of the read class: the operand is read at `ea` and used. -/
def readOperand (ea : Word) (f : Byte → Regs → Regs) : Bus Unit := lastRead ea f

/-- `zp`. -/
def readZp (zp : Byte) (f : Byte → Regs → Regs) : Bus Unit := readOperand (zext16 zp) f

/-- `abs`. -/
def readAbs (lo hi : Byte) (f : Byte → Regs → Regs) : Bus Unit := readOperand (word hi lo) f

/-- Zero page indexed by `i`, with the dummy read of cycle 3. -/
def readZpIndexed (zp i : Byte) (f : Byte → Regs → Regs) : Bus Unit :=
  (dummyCycle (zext16 zp)).andThen (readOperand (zpIndexed zp i) f)

/-- `zpx`. -/
def readZpx (zp : Byte) (f : Byte → Regs → Regs) : Bus Unit := .look fun r => readZpIndexed zp r.x f

/-- `zpy`. -/
def readZpy (zp : Byte) (f : Byte → Regs → Regs) : Bus Unit := .look fun r => readZpIndexed zp r.y f

/-- The indexed read with the extra cycle on a page crossing (R330, R333). -/
def readIndexed (base : Word) (i : Byte) (f : Byte → Regs → Regs) : Bus Unit :=
  if crossed base i then (dummyCycle (unfixed base i)).andThen (readOperand (indexed base i) f)
  else readOperand (indexed base i) f

/-- `abx`. -/
def readAbx (lo hi : Byte) (f : Byte → Regs → Regs) : Bus Unit := .look fun r => readIndexed (word hi lo) r.x f

/-- `aby`. -/
def readAby (lo hi : Byte) (f : Byte → Regs → Regs) : Bus Unit := .look fun r => readIndexed (word hi lo) r.y f

/-- `izx`. -/
def readIzx (zp : Byte) (f : Byte → Regs → Regs) : Bus Unit := (addrIzx zp).bind fun ea => readOperand ea f

/-- `izy`. -/
def readIzy (zp : Byte) (f : Byte → Regs → Regs) : Bus Unit :=
  (readPointer (zext16 zp)).bind fun base => .look fun r => readIndexed base r.y f

/-! ### Write class (R331): `v` is the register value stored -/

/-- The last cycle of the write class. -/
def writeOperand (ea : Word) (v : Regs → Byte) : Bus Unit := .look fun r => writeCycle ea (v r) fun r => r

/-- `zp`. -/
def writeZp (zp : Byte) (v : Regs → Byte) : Bus Unit := writeOperand (zext16 zp) v

/-- `abs`. -/
def writeAbs (lo hi : Byte) (v : Regs → Byte) : Bus Unit := writeOperand (word hi lo) v

/-- Zero page indexed by `i`. -/
def writeZpIndexed (zp i : Byte) (v : Regs → Byte) : Bus Unit :=
  (dummyCycle (zext16 zp)).andThen (writeOperand (zpIndexed zp i) v)

/-- `zpx`. -/
def writeZpx (zp : Byte) (v : Regs → Byte) : Bus Unit := .look fun r => writeZpIndexed zp r.x v

/-- `zpy`. -/
def writeZpy (zp : Byte) (v : Regs → Byte) : Bus Unit := .look fun r => writeZpIndexed zp r.y v

/-- The indexed store, whose dummy read is always made (R331). -/
def writeIndexed (base : Word) (i : Byte) (v : Regs → Byte) : Bus Unit :=
  (dummyCycle (unfixed base i)).andThen (writeOperand (indexed base i) v)

/-- `abx`. -/
def writeAbx (lo hi : Byte) (v : Regs → Byte) : Bus Unit := .look fun r => writeIndexed (word hi lo) r.x v

/-- `aby`. -/
def writeAby (lo hi : Byte) (v : Regs → Byte) : Bus Unit := .look fun r => writeIndexed (word hi lo) r.y v

/-- `izx`. -/
def writeIzx (zp : Byte) (v : Regs → Byte) : Bus Unit := (addrIzx zp).bind fun ea => writeOperand ea v

/-- `izy`. -/
def writeIzy (zp : Byte) (v : Regs → Byte) : Bus Unit :=
  (readPointer (zext16 zp)).bind fun base => .look fun r => writeIndexed base r.y v

/-! ### Read-modify-write class (R332): `f` gives the byte written and the registers after -/

/-- The last three cycles: read, write back unmodified, write the result. -/
def rmwOperand (ea : Word) (f : Byte → Regs → Byte × Regs) : Bus Unit :=
  (readByte ea).bind fun m => (writeCycle ea m fun r => r).andThen <|
    .look fun r => writeCycle ea (f m r).1 fun r => (f m r).2

/-- `zp`. -/
def rmwZp (zp : Byte) (f : Byte → Regs → Byte × Regs) : Bus Unit := rmwOperand (zext16 zp) f

/-- `abs`. -/
def rmwAbs (lo hi : Byte) (f : Byte → Regs → Byte × Regs) : Bus Unit := rmwOperand (word hi lo) f

/-- `zpx`. -/
def rmwZpx (zp : Byte) (f : Byte → Regs → Byte × Regs) : Bus Unit :=
  .look fun r => (dummyCycle (zext16 zp)).andThen (rmwOperand (zpIndexed zp r.x) f)

/-- The indexed form, whose dummy read is always made. -/
def rmwIndexed (base : Word) (i : Byte) (f : Byte → Regs → Byte × Regs) : Bus Unit :=
  (dummyCycle (unfixed base i)).andThen (rmwOperand (indexed base i) f)

/-- `abx`. -/
def rmwAbx (lo hi : Byte) (f : Byte → Regs → Byte × Regs) : Bus Unit :=
  .look fun r => rmwIndexed (word hi lo) r.x f

/-- `aby`. -/
def rmwAby (lo hi : Byte) (f : Byte → Regs → Byte × Regs) : Bus Unit :=
  .look fun r => rmwIndexed (word hi lo) r.y f

/-- `izx`. -/
def rmwIzx (zp : Byte) (f : Byte → Regs → Byte × Regs) : Bus Unit := (addrIzx zp).bind fun ea => rmwOperand ea f

/-- `izy`. -/
def rmwIzy (zp : Byte) (f : Byte → Regs → Byte × Regs) : Bus Unit :=
  (readPointer (zext16 zp)).bind fun base => .look fun r => rmwIndexed base r.y f

/-! ### Implied and accumulator (R328, R336, R332 row acc) -/

/-- Cycle 2 is a dummy read of PC; the operation takes effect at its end. -/
def implied (f : Regs → Regs) : Bus Unit := .look fun r => lastRead r.pc fun _ r => f r

/-! ### Relative (R327) -/

/-- The branch target (R327). -/
def branchTarget (pc : Word) (off : Byte) : Word := pc + sext16 off

/-- The cycles of a taken branch, and PC (R450). -/
def branchTaken (off : Byte) : Bus Unit :=
  .look fun r =>
    let target := branchTarget r.pc off
    if hiByte target = hiByte r.pc then lastRead r.pc fun _ r => { r with pc := target }
    else
      (dummyCycle r.pc).andThen (lastRead (word (hiByte r.pc) (loByte target)) fun _ r => { r with pc := target })

/-- A conditional branch: the condition is evaluated from P as it stands at cycle 2 (R450). -/
def branch (cond : Flags → Bool) (off : Byte) : Bus Unit :=
  .look fun r => if cond r.p then branchTaken off else .done ()

end Sys2Proof.Machine
end

