-- ==== Sys2Proof/Machine/Ops.lean ====
section
/-! DEFINITION. The operations shared by the instructions and the sequences: the stack (R16, R335), taking an
exception (R465, R553) and returning from one (R464), the reset sequence (R571), instruction fetch (R17, R285), and
the end of an instruction (R551). -/

namespace Sys2Proof.Machine

/-! ### Running a bus sequence -/

/-- The outcome of a bus sequence.  One that CPU-RESET cuts short (R572) ends in the reset state, which is a next
state like any other. -/
def run (m : Bus Unit) (s : State) : Host.Outcome State Fault Refusal :=
  match m.live s with
  | .ok _ t => .next t
  | .error _ t => .next t

/-! ### Stack -/

/-- The stack address `$0100 + S` (R16). -/
def stackAddr (r : Regs) : Word := word 0x01 r.s

/-- `Push(v)` (R16), with a further register update at its end. -/
def pushThen (v : Regs → Byte) (f : Regs → Regs) : Bus Unit :=
  .look fun r => writeCycle (stackAddr r) (v r) fun r => f { r with s := r.s - 1 }

/-- `Push(v)` (R16). -/
def push (v : Regs → Byte) : Bus Unit := pushThen v fun r => r

/-- The "increment" cycle of a pull (R335): a dummy read, then S counts up. -/
def pullDummy : Bus Unit := .look fun r => lastRead (stackAddr r) fun _ r => { r with s := r.s + 1 }

/-- A pull that another pull follows: S counts up at its end (R335). -/
def pullNext (f : Byte → Regs → Regs) : Bus Byte :=
  .look fun r => readCycle (stackAddr r) fun m r => { f m r with s := r.s + 1 }

/-- The last pull of a row (R335). -/
def pullLast (f : Byte → Regs → Regs) : Bus Byte := .look fun r => readCycle (stackAddr r) f

/-- A dummy read of PC, which does not move PC (R336). -/
def dummyPc : Bus Unit := .look fun r => dummyCycle r.pc

/-- PHA and PHP after their opcode fetch (R352, R353). -/
def pushRow (v : Regs → Byte) : Bus Unit := dummyPc.andThen (push v)

/-- PLA and PLP after their opcode fetch (R354, R355). -/
def pullRow (f : Byte → Regs → Regs) : Bus Unit :=
  dummyPc.andThen <| pullDummy.andThen <| (pullLast f).bind fun _ => .done ()

/-! ### Taking an exception, and returning from one -/

/-- The NMI vector (R540). -/
def vectorNmi : Word := 0xFFFA
/-- The RESET vector (R540). -/
def vectorReset : Word := 0xFFFC
/-- The vector of IRQ and BRK (R540). -/
def vectorIrq : Word := 0xFFFE

/-- Cycles 6 and 7: PC takes the word at a vector (R216, R465, R553, R571). -/
def loadVector (v : Word) : Bus Unit :=
  (readByte v).bind fun lo => lastRead (v + 1) fun hi r => { r with pc := word hi lo }

/-- Taking an exception, cycles 3 to 7 (R465, R553): push PC, high byte first, push P with B = `b`, set I, load the
vector.  D and the other flags stay as they are. -/
def takeException (b : Bool) (vector : Word) : Bus Unit :=
  (push fun r => hiByte r.pc).andThen <| (push fun r => loByte r.pc).andThen <|
    (pushThen (fun r => pImage b r.p) fun r => { r with p := { r.p with i := true } }).andThen (loadVector vector)

/-- The interrupt sequence (R553): two dummy reads of PC, then the exception with B = 0. -/
def interruptSequence (vector : Word) : Bus Unit :=
  dummyPc.andThen <| dummyPc.andThen (takeException false vector)

/-- Returning from an exception, cycles 3 to 6 of RTI (R464): P first, so that the poll of
cycle 5 sees its I; then PC. -/
def returnFromException : Bus Unit :=
  pullDummy.andThen <| (pullNext fun m r => { r with p := Flags.ofByte m }).andThen <|
    (pullNext fun _ r => r).bind fun lo => (pullLast fun hi r => { r with pc := word hi lo }).bind fun _ => .done ()

/-! ### Sequences between instructions -/

/-- Entry to the reset sequence (R571). -/
def resetEntry (s : State) : State :=
  { s with
    regs := Regs.reset s.regs.pc
    latches := { s.latches with nmiEdge := false, nmiPrev := true, resetPending := false } }

/-- A stack read of the reset sequence (R571): S counts down as in a push. -/
def resetPush : Bus Unit := .look fun r => lastRead (stackAddr r) fun _ r => { r with s := r.s - 1 }

/-- The bus cycles of the reset sequence (R571): the three pushes become reads. -/
def resetSequence : Bus Unit :=
  dummyPc.andThen <| dummyPc.andThen <| resetPush.andThen <| resetPush.andThen <| resetPush.andThen
    (loadVector vectorReset)

/-- Entry to the NMI sequence clears the edge latch (R47, R552). -/
def nmiEntry (s : State) : State := { s with latches := { s.latches with nmiEdge := false } }

/-- The bus cycles of the NMI sequence (R552, R553). -/
def nmiSequence : Bus Unit := interruptSequence vectorNmi

/-- The bus cycles of the IRQ sequence (R552, R553). -/
def irqSequence : Bus Unit := interruptSequence vectorIrq

/-- `micro` at the first cycle of an instruction or a sequence. -/
def enter (q : Seq) (s : State) : State := { s with latches := { s.latches with micro := ⟨q, s.regs, []⟩ } }

/-- The end of an instruction or sequence (R551): the sample of its penultimate bus cycle decides, and `micro` is at
the boundary. -/
def finish (s : State) : State :=
  { s with
    latches :=
      { s.latches with
        takeNmi := s.latches.poll2.nmi, takeIrq := s.latches.poll2.irq, irqPending := s.latches.poll2.irq
        poll1 := ⟨false, false⟩, poll2 := ⟨false, false⟩, micro := Micro.boundary } }

/-- `finish` under an outcome. -/
def finishOutcome (o : Host.Outcome State Fault Refusal) : Host.Outcome State Fault Refusal :=
  match o with
  | .next t => .next (finish t)
  | .fault r => .fault r
  | .refused r => .refused r

/-! ### Fetch -/

/-- `Fetch()` (R17): one bus read at PC, which then counts. -/
def fetchByte : Bus Byte := .look fun r => readCycle r.pc fun _ r => { r with pc := r.pc + 1 }

/-- How many operand bytes are fetched straight after the opcode: none for a refused opcode, which raises at its
opcode fetch (R285); one for JSR, whose high byte comes after the pushes (R462), and for JMP abs, whose high byte comes
with the jump (R460); else all of them (R330..R332). -/
def operandFetches (op : Byte) : Nat :=
  if op = 0x20 ∨ op = 0x4C then 1 else if admittedOpcode op then opcodeLength op - 1 else 0

/-- Cycles 1 to 3: the opcode and the operand bytes, and the instruction they decode to.  A byte that is not fetched
here is decoded as 0 and not used: JSR and JMP abs read their high byte themselves, and a refused opcode uses no
operand. -/
def fetchInstr : Bus Instr :=
  fetchByte.bind fun op =>
    match operandFetches op with
    | 0 => .done (decodeParts op 0 0)
    | 1 => fetchByte.bind fun b1 => .done (decodeParts op b1 0)
    | _ => fetchByte.bind fun b1 => fetchByte.bind fun b2 => .done (decodeParts op b1 b2)

end Sys2Proof.Machine
end

