-- ==== Sys2Proof/Machine/Arith.lean ====
section
/-! DEFINITION. Arithmetic, compares, increments and decrements (41_arith_logic.md R410, R411, R415..R417,
R419..R424). -/

namespace Sys2Proof.Machine

/-- The bus cycles of $61 ADC (zp,X) (R410). -/
def busAdcIzx (zp : Byte) : Bus Unit := readIzx zp adc

/-- $61 ADC (zp,X) (R410). -/
def execAdcIzx (zp : Byte) (s : State) : Host.Outcome State Fault Refusal := run (busAdcIzx zp) s

/-- The bus cycles of $65 ADC zp (R410). -/
def busAdcZp (zp : Byte) : Bus Unit := readZp zp adc

/-- $65 ADC zp (R410). -/
def execAdcZp (zp : Byte) (s : State) : Host.Outcome State Fault Refusal := run (busAdcZp zp) s

/-- The bus cycles of $69 ADC #imm8 (R410). -/
def busAdcImm (imm : Byte) : Bus Unit := immediate (adc imm)

/-- $69 ADC #imm8 (R410). -/
def execAdcImm (imm : Byte) (s : State) : Host.Outcome State Fault Refusal := run (busAdcImm imm) s

/-- The bus cycles of $6D ADC abs (R410). -/
def busAdcAbs (lo hi : Byte) : Bus Unit := readAbs lo hi adc

/-- $6D ADC abs (R410). -/
def execAdcAbs (lo hi : Byte) (s : State) : Host.Outcome State Fault Refusal := run (busAdcAbs lo hi) s

/-- The bus cycles of $71 ADC (zp),Y (R410). -/
def busAdcIzy (zp : Byte) : Bus Unit := readIzy zp adc

/-- $71 ADC (zp),Y (R410). -/
def execAdcIzy (zp : Byte) (s : State) : Host.Outcome State Fault Refusal := run (busAdcIzy zp) s

/-- The bus cycles of $75 ADC zp,X (R410). -/
def busAdcZpx (zp : Byte) : Bus Unit := readZpx zp adc

/-- $75 ADC zp,X (R410). -/
def execAdcZpx (zp : Byte) (s : State) : Host.Outcome State Fault Refusal := run (busAdcZpx zp) s

/-- The bus cycles of $79 ADC abs,Y (R410). -/
def busAdcAby (lo hi : Byte) : Bus Unit := readAby lo hi adc

/-- $79 ADC abs,Y (R410). -/
def execAdcAby (lo hi : Byte) (s : State) : Host.Outcome State Fault Refusal := run (busAdcAby lo hi) s

/-- The bus cycles of $7D ADC abs,X (R410). -/
def busAdcAbx (lo hi : Byte) : Bus Unit := readAbx lo hi adc

/-- $7D ADC abs,X (R410). -/
def execAdcAbx (lo hi : Byte) (s : State) : Host.Outcome State Fault Refusal := run (busAdcAbx lo hi) s

/-- The bus cycles of $E1 SBC (zp,X) (R411). -/
def busSbcIzx (zp : Byte) : Bus Unit := readIzx zp sbc

/-- $E1 SBC (zp,X) (R411). -/
def execSbcIzx (zp : Byte) (s : State) : Host.Outcome State Fault Refusal := run (busSbcIzx zp) s

/-- The bus cycles of $E5 SBC zp (R411). -/
def busSbcZp (zp : Byte) : Bus Unit := readZp zp sbc

/-- $E5 SBC zp (R411). -/
def execSbcZp (zp : Byte) (s : State) : Host.Outcome State Fault Refusal := run (busSbcZp zp) s

/-- The bus cycles of $E9 SBC #imm8 (R411). -/
def busSbcImm (imm : Byte) : Bus Unit := immediate (sbc imm)

/-- $E9 SBC #imm8 (R411). -/
def execSbcImm (imm : Byte) (s : State) : Host.Outcome State Fault Refusal := run (busSbcImm imm) s

/-- The bus cycles of $ED SBC abs (R411). -/
def busSbcAbs (lo hi : Byte) : Bus Unit := readAbs lo hi sbc

/-- $ED SBC abs (R411). -/
def execSbcAbs (lo hi : Byte) (s : State) : Host.Outcome State Fault Refusal := run (busSbcAbs lo hi) s

/-- The bus cycles of $F1 SBC (zp),Y (R411). -/
def busSbcIzy (zp : Byte) : Bus Unit := readIzy zp sbc

/-- $F1 SBC (zp),Y (R411). -/
def execSbcIzy (zp : Byte) (s : State) : Host.Outcome State Fault Refusal := run (busSbcIzy zp) s

/-- The bus cycles of $F5 SBC zp,X (R411). -/
def busSbcZpx (zp : Byte) : Bus Unit := readZpx zp sbc

/-- $F5 SBC zp,X (R411). -/
def execSbcZpx (zp : Byte) (s : State) : Host.Outcome State Fault Refusal := run (busSbcZpx zp) s

/-- The bus cycles of $F9 SBC abs,Y (R411). -/
def busSbcAby (lo hi : Byte) : Bus Unit := readAby lo hi sbc

/-- $F9 SBC abs,Y (R411). -/
def execSbcAby (lo hi : Byte) (s : State) : Host.Outcome State Fault Refusal := run (busSbcAby lo hi) s

/-- The bus cycles of $FD SBC abs,X (R411). -/
def busSbcAbx (lo hi : Byte) : Bus Unit := readAbx lo hi sbc

/-- $FD SBC abs,X (R411). -/
def execSbcAbx (lo hi : Byte) (s : State) : Host.Outcome State Fault Refusal := run (busSbcAbx lo hi) s

/-- The bus cycles of $C1 CMP (zp,X) (R415). -/
def busCmpIzx (zp : Byte) : Bus Unit := readIzx zp cmpA

/-- $C1 CMP (zp,X) (R415). -/
def execCmpIzx (zp : Byte) (s : State) : Host.Outcome State Fault Refusal := run (busCmpIzx zp) s

/-- The bus cycles of $C5 CMP zp (R415). -/
def busCmpZp (zp : Byte) : Bus Unit := readZp zp cmpA

/-- $C5 CMP zp (R415). -/
def execCmpZp (zp : Byte) (s : State) : Host.Outcome State Fault Refusal := run (busCmpZp zp) s

/-- The bus cycles of $C9 CMP #imm8 (R415). -/
def busCmpImm (imm : Byte) : Bus Unit := immediate (cmpA imm)

/-- $C9 CMP #imm8 (R415). -/
def execCmpImm (imm : Byte) (s : State) : Host.Outcome State Fault Refusal := run (busCmpImm imm) s

/-- The bus cycles of $CD CMP abs (R415). -/
def busCmpAbs (lo hi : Byte) : Bus Unit := readAbs lo hi cmpA

/-- $CD CMP abs (R415). -/
def execCmpAbs (lo hi : Byte) (s : State) : Host.Outcome State Fault Refusal := run (busCmpAbs lo hi) s

/-- The bus cycles of $D1 CMP (zp),Y (R415). -/
def busCmpIzy (zp : Byte) : Bus Unit := readIzy zp cmpA

/-- $D1 CMP (zp),Y (R415). -/
def execCmpIzy (zp : Byte) (s : State) : Host.Outcome State Fault Refusal := run (busCmpIzy zp) s

/-- The bus cycles of $D5 CMP zp,X (R415). -/
def busCmpZpx (zp : Byte) : Bus Unit := readZpx zp cmpA

/-- $D5 CMP zp,X (R415). -/
def execCmpZpx (zp : Byte) (s : State) : Host.Outcome State Fault Refusal := run (busCmpZpx zp) s

/-- The bus cycles of $D9 CMP abs,Y (R415). -/
def busCmpAby (lo hi : Byte) : Bus Unit := readAby lo hi cmpA

/-- $D9 CMP abs,Y (R415). -/
def execCmpAby (lo hi : Byte) (s : State) : Host.Outcome State Fault Refusal := run (busCmpAby lo hi) s

/-- The bus cycles of $DD CMP abs,X (R415). -/
def busCmpAbx (lo hi : Byte) : Bus Unit := readAbx lo hi cmpA

/-- $DD CMP abs,X (R415). -/
def execCmpAbx (lo hi : Byte) (s : State) : Host.Outcome State Fault Refusal := run (busCmpAbx lo hi) s

/-- The bus cycles of $E0 CPX #imm8 (R416). -/
def busCpxImm (imm : Byte) : Bus Unit := immediate (cmpX imm)

/-- $E0 CPX #imm8 (R416). -/
def execCpxImm (imm : Byte) (s : State) : Host.Outcome State Fault Refusal := run (busCpxImm imm) s

/-- The bus cycles of $E4 CPX zp (R416). -/
def busCpxZp (zp : Byte) : Bus Unit := readZp zp cmpX

/-- $E4 CPX zp (R416). -/
def execCpxZp (zp : Byte) (s : State) : Host.Outcome State Fault Refusal := run (busCpxZp zp) s

/-- The bus cycles of $EC CPX abs (R416). -/
def busCpxAbs (lo hi : Byte) : Bus Unit := readAbs lo hi cmpX

/-- $EC CPX abs (R416). -/
def execCpxAbs (lo hi : Byte) (s : State) : Host.Outcome State Fault Refusal := run (busCpxAbs lo hi) s

/-- The bus cycles of $C0 CPY #imm8 (R417). -/
def busCpyImm (imm : Byte) : Bus Unit := immediate (cmpY imm)

/-- $C0 CPY #imm8 (R417). -/
def execCpyImm (imm : Byte) (s : State) : Host.Outcome State Fault Refusal := run (busCpyImm imm) s

/-- The bus cycles of $C4 CPY zp (R417). -/
def busCpyZp (zp : Byte) : Bus Unit := readZp zp cmpY

/-- $C4 CPY zp (R417). -/
def execCpyZp (zp : Byte) (s : State) : Host.Outcome State Fault Refusal := run (busCpyZp zp) s

/-- The bus cycles of $CC CPY abs (R417). -/
def busCpyAbs (lo hi : Byte) : Bus Unit := readAbs lo hi cmpY

/-- $CC CPY abs (R417). -/
def execCpyAbs (lo hi : Byte) (s : State) : Host.Outcome State Fault Refusal := run (busCpyAbs lo hi) s

/-- The bus cycles of $E6 INC zp (R419). -/
def busIncZp (zp : Byte) : Bus Unit := rmwZp zp incM

/-- $E6 INC zp (R419). -/
def execIncZp (zp : Byte) (s : State) : Host.Outcome State Fault Refusal := run (busIncZp zp) s

/-- The bus cycles of $EE INC abs (R419). -/
def busIncAbs (lo hi : Byte) : Bus Unit := rmwAbs lo hi incM

/-- $EE INC abs (R419). -/
def execIncAbs (lo hi : Byte) (s : State) : Host.Outcome State Fault Refusal := run (busIncAbs lo hi) s

/-- The bus cycles of $F6 INC zp,X (R419). -/
def busIncZpx (zp : Byte) : Bus Unit := rmwZpx zp incM

/-- $F6 INC zp,X (R419). -/
def execIncZpx (zp : Byte) (s : State) : Host.Outcome State Fault Refusal := run (busIncZpx zp) s

/-- The bus cycles of $FE INC abs,X (R419). -/
def busIncAbx (lo hi : Byte) : Bus Unit := rmwAbx lo hi incM

/-- $FE INC abs,X (R419). -/
def execIncAbx (lo hi : Byte) (s : State) : Host.Outcome State Fault Refusal := run (busIncAbx lo hi) s

/-- The bus cycles of $C6 DEC zp (R420). -/
def busDecZp (zp : Byte) : Bus Unit := rmwZp zp decM

/-- $C6 DEC zp (R420). -/
def execDecZp (zp : Byte) (s : State) : Host.Outcome State Fault Refusal := run (busDecZp zp) s

/-- The bus cycles of $CE DEC abs (R420). -/
def busDecAbs (lo hi : Byte) : Bus Unit := rmwAbs lo hi decM

/-- $CE DEC abs (R420). -/
def execDecAbs (lo hi : Byte) (s : State) : Host.Outcome State Fault Refusal := run (busDecAbs lo hi) s

/-- The bus cycles of $D6 DEC zp,X (R420). -/
def busDecZpx (zp : Byte) : Bus Unit := rmwZpx zp decM

/-- $D6 DEC zp,X (R420). -/
def execDecZpx (zp : Byte) (s : State) : Host.Outcome State Fault Refusal := run (busDecZpx zp) s

/-- The bus cycles of $DE DEC abs,X (R420). -/
def busDecAbx (lo hi : Byte) : Bus Unit := rmwAbx lo hi decM

/-- $DE DEC abs,X (R420). -/
def execDecAbx (lo hi : Byte) (s : State) : Host.Outcome State Fault Refusal := run (busDecAbx lo hi) s

/-- The bus cycles of $E8 INX (R421). -/
def busInx : Bus Unit := implied inx

/-- $E8 INX (R421). -/
def execInx (s : State) : Host.Outcome State Fault Refusal := run busInx s

/-- The bus cycles of $C8 INY (R422). -/
def busIny : Bus Unit := implied iny

/-- $C8 INY (R422). -/
def execIny (s : State) : Host.Outcome State Fault Refusal := run busIny s

/-- The bus cycles of $CA DEX (R423). -/
def busDex : Bus Unit := implied dex

/-- $CA DEX (R423). -/
def execDex (s : State) : Host.Outcome State Fault Refusal := run busDex s

/-- The bus cycles of $88 DEY (R424). -/
def busDey : Bus Unit := implied dey

/-- $88 DEY (R424). -/
def execDey (s : State) : Host.Outcome State Fault Refusal := run busDey s

end Sys2Proof.Machine
end

