-- ==== Sys2Proof/Machine/Control.lean ====
section
/-! DEFINITION. Branches, jumps, subroutine calls, BRK and RTI (42_control_flags.md R450..R465). -/

namespace Sys2Proof.Machine

/-- The bus cycles of $90 BCC rel (R451). -/
def busBccRel (off : Byte) : Bus Unit := branch (fun p => !p.c) off

/-- $90 BCC rel (R451). -/
def execBccRel (off : Byte) (s : State) : Host.Outcome State Fault Refusal := run (busBccRel off) s

/-- The bus cycles of $B0 BCS rel (R452). -/
def busBcsRel (off : Byte) : Bus Unit := branch (fun p => p.c) off

/-- $B0 BCS rel (R452). -/
def execBcsRel (off : Byte) (s : State) : Host.Outcome State Fault Refusal := run (busBcsRel off) s

/-- The bus cycles of $F0 BEQ rel (R453). -/
def busBeqRel (off : Byte) : Bus Unit := branch (fun p => p.z) off

/-- $F0 BEQ rel (R453). -/
def execBeqRel (off : Byte) (s : State) : Host.Outcome State Fault Refusal := run (busBeqRel off) s

/-- The bus cycles of $30 BMI rel (R454). -/
def busBmiRel (off : Byte) : Bus Unit := branch (fun p => p.n) off

/-- $30 BMI rel (R454). -/
def execBmiRel (off : Byte) (s : State) : Host.Outcome State Fault Refusal := run (busBmiRel off) s

/-- The bus cycles of $D0 BNE rel (R455). -/
def busBneRel (off : Byte) : Bus Unit := branch (fun p => !p.z) off

/-- $D0 BNE rel (R455). -/
def execBneRel (off : Byte) (s : State) : Host.Outcome State Fault Refusal := run (busBneRel off) s

/-- The bus cycles of $10 BPL rel (R456). -/
def busBplRel (off : Byte) : Bus Unit := branch (fun p => !p.n) off

/-- $10 BPL rel (R456). -/
def execBplRel (off : Byte) (s : State) : Host.Outcome State Fault Refusal := run (busBplRel off) s

/-- The bus cycles of $50 BVC rel (R457). -/
def busBvcRel (off : Byte) : Bus Unit := branch (fun p => !p.v) off

/-- $50 BVC rel (R457). -/
def execBvcRel (off : Byte) (s : State) : Host.Outcome State Fault Refusal := run (busBvcRel off) s

/-- The bus cycles of $70 BVS rel (R458). -/
def busBvsRel (off : Byte) : Bus Unit := branch (fun p => p.v) off

/-- $70 BVS rel (R458). -/
def execBvsRel (off : Byte) (s : State) : Host.Outcome State Fault Refusal := run (busBvsRel off) s

/-- The last bus cycle of JMP abs (R460): cycle 3 fetches the high byte, and PC becomes the target with it.  Where
CPU-RESET falls in this cycle, the cycle completes, register update and all (R572, R781 2c), and the reset finds the
target in PC; R571 says only "when the reset struck" (DEDUCED, log 27). -/
def busJmpAbs (lo : Byte) : Bus Unit := .look fun r => lastRead r.pc fun hi r => { r with pc := word hi lo }

/-- $4C JMP abs (R460).  The high byte is the one fetched at cycle 3. -/
def execJmpAbs (lo _hi : Byte) (s : State) : Host.Outcome State Fault Refusal := run (busJmpAbs lo) s

/-- The bus cycles of JMP (abs) after its operand fetch (R461). -/
def busJmpInd (lo hi : Byte) : Bus Unit :=
  (readByte (word hi lo)).bind fun lo1 =>
    lastRead (pointerHi (word hi lo)) fun hi1 r => { r with pc := word hi1 lo1 }

/-- $6C JMP (abs) (R461). -/
def execJmpInd (lo hi : Byte) (s : State) : Host.Outcome State Fault Refusal := run (busJmpInd lo hi) s

/-- The bus cycles of JSR abs after its operand fetch (R462).  The target's high byte is the one fetched at cycle 6,
after the pushes. -/
def busJsrAbs (lo : Byte) : Bus Unit :=
  (Bus.look fun r => dummyCycle (stackAddr r)).andThen <| (push fun r => hiByte r.pc).andThen <|
    (push fun r => loByte r.pc).andThen (busJmpAbs lo)

/-- $20 JSR abs (R462). -/
def execJsrAbs (lo _hi : Byte) (s : State) : Host.Outcome State Fault Refusal := run (busJsrAbs lo) s

/-- The bus cycles of RTS after its operand fetch (R463). -/
def busRts : Bus Unit :=
  dummyPc.andThen <| pullDummy.andThen <| (pullNext fun _ r => r).bind fun lo => (pullLast fun _ r => r).bind fun hi =>
    lastRead (word hi lo) fun _ r => { r with pc := word hi lo + 1 }

/-- $60 RTS (R463). -/
def execRts (s : State) : Host.Outcome State Fault Refusal := run busRts s

/-- The bus cycles of RTI after its operand fetch (R464). -/
def busRti : Bus Unit := dummyPc.andThen returnFromException

/-- RTI after its operand fetch (R464). -/
def execRti (s : State) : Host.Outcome State Fault Refusal := run busRti s

/-- The bus cycles of BRK after its operand fetch (R465). Cycle 2 fetches and discards the padding byte. -/
def busBrk : Bus Unit := fetchByte.andThen (takeException true vectorIrq)

/-- BRK after its operand fetch (R465). Cycle 2 fetches and discards the padding byte. -/
def execBrk (s : State) : Host.Outcome State Fault Refusal := run busBrk s

end Sys2Proof.Machine
end

