-- ==== Sys2Proof/Machine/FlagOps.lean ====
section
/-! DEFINITION. Flag instructions and NOP (42_control_flags.md R470..R477). -/

namespace Sys2Proof.Machine

/-- The bus cycles of $18 CLC (R470). -/
def busClc : Bus Unit := implied clc

/-- $18 CLC (R470). -/
def execClc (s : State) : Host.Outcome State Fault Refusal := run busClc s

/-- The bus cycles of $D8 CLD (R471). -/
def busCld : Bus Unit := implied cld

/-- $D8 CLD (R471). -/
def execCld (s : State) : Host.Outcome State Fault Refusal := run busCld s

/-- The bus cycles of $58 CLI (R472). -/
def busCli : Bus Unit := implied cli

/-- $58 CLI (R472). -/
def execCli (s : State) : Host.Outcome State Fault Refusal := run busCli s

/-- The bus cycles of $B8 CLV (R473). -/
def busClv : Bus Unit := implied clv

/-- $B8 CLV (R473). -/
def execClv (s : State) : Host.Outcome State Fault Refusal := run busClv s

/-- The bus cycles of $38 SEC (R474). -/
def busSec : Bus Unit := implied sec

/-- $38 SEC (R474). -/
def execSec (s : State) : Host.Outcome State Fault Refusal := run busSec s

/-- The bus cycles of $F8 SED (R475). -/
def busSed : Bus Unit := implied sed

/-- $F8 SED (R475). -/
def execSed (s : State) : Host.Outcome State Fault Refusal := run busSed s

/-- The bus cycles of $78 SEI (R476). -/
def busSei : Bus Unit := implied sei

/-- $78 SEI (R476). -/
def execSei (s : State) : Host.Outcome State Fault Refusal := run busSei s

/-- The bus cycles of $EA NOP (R477). -/
def busNop : Bus Unit := implied nopRegs

/-- $EA NOP (R477). -/
def execNop (s : State) : Host.Outcome State Fault Refusal := run busNop s

end Sys2Proof.Machine
end

