-- ==== Sys2Proof/Machine/Loads.lean ====
section
/-! DEFINITION. Loads (40_addressing_load_store.md R340..R342): read class, R330. -/

namespace Sys2Proof.Machine

/-- The bus cycles of $A1 LDA (zp,X) (R340). -/
def busLdaIzx (zp : Byte) : Bus Unit := readIzx zp setA

/-- $A1 LDA (zp,X) (R340). -/
def execLdaIzx (zp : Byte) (s : State) : Host.Outcome State Fault Refusal := run (busLdaIzx zp) s

/-- The bus cycles of $A5 LDA zp (R340). -/
def busLdaZp (zp : Byte) : Bus Unit := readZp zp setA

/-- $A5 LDA zp (R340). -/
def execLdaZp (zp : Byte) (s : State) : Host.Outcome State Fault Refusal := run (busLdaZp zp) s

/-- The bus cycles of $A9 LDA #imm8 (R340). -/
def busLdaImm (imm : Byte) : Bus Unit := immediate (setA imm)

/-- $A9 LDA #imm8 (R340). -/
def execLdaImm (imm : Byte) (s : State) : Host.Outcome State Fault Refusal := run (busLdaImm imm) s

/-- The bus cycles of $AD LDA abs (R340). -/
def busLdaAbs (lo hi : Byte) : Bus Unit := readAbs lo hi setA

/-- $AD LDA abs (R340). -/
def execLdaAbs (lo hi : Byte) (s : State) : Host.Outcome State Fault Refusal := run (busLdaAbs lo hi) s

/-- The bus cycles of $B1 LDA (zp),Y (R340). -/
def busLdaIzy (zp : Byte) : Bus Unit := readIzy zp setA

/-- $B1 LDA (zp),Y (R340). -/
def execLdaIzy (zp : Byte) (s : State) : Host.Outcome State Fault Refusal := run (busLdaIzy zp) s

/-- The bus cycles of $B5 LDA zp,X (R340). -/
def busLdaZpx (zp : Byte) : Bus Unit := readZpx zp setA

/-- $B5 LDA zp,X (R340). -/
def execLdaZpx (zp : Byte) (s : State) : Host.Outcome State Fault Refusal := run (busLdaZpx zp) s

/-- The bus cycles of $B9 LDA abs,Y (R340). -/
def busLdaAby (lo hi : Byte) : Bus Unit := readAby lo hi setA

/-- $B9 LDA abs,Y (R340). -/
def execLdaAby (lo hi : Byte) (s : State) : Host.Outcome State Fault Refusal := run (busLdaAby lo hi) s

/-- The bus cycles of $BD LDA abs,X (R340). -/
def busLdaAbx (lo hi : Byte) : Bus Unit := readAbx lo hi setA

/-- $BD LDA abs,X (R340). -/
def execLdaAbx (lo hi : Byte) (s : State) : Host.Outcome State Fault Refusal := run (busLdaAbx lo hi) s

/-- The bus cycles of $A2 LDX #imm8 (R341). -/
def busLdxImm (imm : Byte) : Bus Unit := immediate (setX imm)

/-- $A2 LDX #imm8 (R341). -/
def execLdxImm (imm : Byte) (s : State) : Host.Outcome State Fault Refusal := run (busLdxImm imm) s

/-- The bus cycles of $A6 LDX zp (R341). -/
def busLdxZp (zp : Byte) : Bus Unit := readZp zp setX

/-- $A6 LDX zp (R341). -/
def execLdxZp (zp : Byte) (s : State) : Host.Outcome State Fault Refusal := run (busLdxZp zp) s

/-- The bus cycles of $AE LDX abs (R341). -/
def busLdxAbs (lo hi : Byte) : Bus Unit := readAbs lo hi setX

/-- $AE LDX abs (R341). -/
def execLdxAbs (lo hi : Byte) (s : State) : Host.Outcome State Fault Refusal := run (busLdxAbs lo hi) s

/-- The bus cycles of $B6 LDX zp,Y (R341). -/
def busLdxZpy (zp : Byte) : Bus Unit := readZpy zp setX

/-- $B6 LDX zp,Y (R341). -/
def execLdxZpy (zp : Byte) (s : State) : Host.Outcome State Fault Refusal := run (busLdxZpy zp) s

/-- The bus cycles of $BE LDX abs,Y (R341). -/
def busLdxAby (lo hi : Byte) : Bus Unit := readAby lo hi setX

/-- $BE LDX abs,Y (R341). -/
def execLdxAby (lo hi : Byte) (s : State) : Host.Outcome State Fault Refusal := run (busLdxAby lo hi) s

/-- The bus cycles of $A0 LDY #imm8 (R342). -/
def busLdyImm (imm : Byte) : Bus Unit := immediate (setY imm)

/-- $A0 LDY #imm8 (R342). -/
def execLdyImm (imm : Byte) (s : State) : Host.Outcome State Fault Refusal := run (busLdyImm imm) s

/-- The bus cycles of $A4 LDY zp (R342). -/
def busLdyZp (zp : Byte) : Bus Unit := readZp zp setY

/-- $A4 LDY zp (R342). -/
def execLdyZp (zp : Byte) (s : State) : Host.Outcome State Fault Refusal := run (busLdyZp zp) s

/-- The bus cycles of $AC LDY abs (R342). -/
def busLdyAbs (lo hi : Byte) : Bus Unit := readAbs lo hi setY

/-- $AC LDY abs (R342). -/
def execLdyAbs (lo hi : Byte) (s : State) : Host.Outcome State Fault Refusal := run (busLdyAbs lo hi) s

/-- The bus cycles of $B4 LDY zp,X (R342). -/
def busLdyZpx (zp : Byte) : Bus Unit := readZpx zp setY

/-- $B4 LDY zp,X (R342). -/
def execLdyZpx (zp : Byte) (s : State) : Host.Outcome State Fault Refusal := run (busLdyZpx zp) s

/-- The bus cycles of $BC LDY abs,X (R342). -/
def busLdyAbx (lo hi : Byte) : Bus Unit := readAbx lo hi setY

/-- $BC LDY abs,X (R342). -/
def execLdyAbx (lo hi : Byte) (s : State) : Host.Outcome State Fault Refusal := run (busLdyAbx lo hi) s

end Sys2Proof.Machine
end

