-- ==== Sys2Proof/Machine/Logic.lean ====
section
/-! DEFINITION. Logic and bit test (41_arith_logic.md R412..R414, R418). -/

namespace Sys2Proof.Machine

/-- The bus cycles of $21 AND (zp,X) (R412). -/
def busAndIzx (zp : Byte) : Bus Unit := readIzx zp andA

/-- $21 AND (zp,X) (R412). -/
def execAndIzx (zp : Byte) (s : State) : Host.Outcome State Fault Refusal := run (busAndIzx zp) s

/-- The bus cycles of $25 AND zp (R412). -/
def busAndZp (zp : Byte) : Bus Unit := readZp zp andA

/-- $25 AND zp (R412). -/
def execAndZp (zp : Byte) (s : State) : Host.Outcome State Fault Refusal := run (busAndZp zp) s

/-- The bus cycles of $29 AND #imm8 (R412). -/
def busAndImm (imm : Byte) : Bus Unit := immediate (andA imm)

/-- $29 AND #imm8 (R412). -/
def execAndImm (imm : Byte) (s : State) : Host.Outcome State Fault Refusal := run (busAndImm imm) s

/-- The bus cycles of $2D AND abs (R412). -/
def busAndAbs (lo hi : Byte) : Bus Unit := readAbs lo hi andA

/-- $2D AND abs (R412). -/
def execAndAbs (lo hi : Byte) (s : State) : Host.Outcome State Fault Refusal := run (busAndAbs lo hi) s

/-- The bus cycles of $31 AND (zp),Y (R412). -/
def busAndIzy (zp : Byte) : Bus Unit := readIzy zp andA

/-- $31 AND (zp),Y (R412). -/
def execAndIzy (zp : Byte) (s : State) : Host.Outcome State Fault Refusal := run (busAndIzy zp) s

/-- The bus cycles of $35 AND zp,X (R412). -/
def busAndZpx (zp : Byte) : Bus Unit := readZpx zp andA

/-- $35 AND zp,X (R412). -/
def execAndZpx (zp : Byte) (s : State) : Host.Outcome State Fault Refusal := run (busAndZpx zp) s

/-- The bus cycles of $39 AND abs,Y (R412). -/
def busAndAby (lo hi : Byte) : Bus Unit := readAby lo hi andA

/-- $39 AND abs,Y (R412). -/
def execAndAby (lo hi : Byte) (s : State) : Host.Outcome State Fault Refusal := run (busAndAby lo hi) s

/-- The bus cycles of $3D AND abs,X (R412). -/
def busAndAbx (lo hi : Byte) : Bus Unit := readAbx lo hi andA

/-- $3D AND abs,X (R412). -/
def execAndAbx (lo hi : Byte) (s : State) : Host.Outcome State Fault Refusal := run (busAndAbx lo hi) s

/-- The bus cycles of $01 ORA (zp,X) (R413). -/
def busOraIzx (zp : Byte) : Bus Unit := readIzx zp oraA

/-- $01 ORA (zp,X) (R413). -/
def execOraIzx (zp : Byte) (s : State) : Host.Outcome State Fault Refusal := run (busOraIzx zp) s

/-- The bus cycles of $05 ORA zp (R413). -/
def busOraZp (zp : Byte) : Bus Unit := readZp zp oraA

/-- $05 ORA zp (R413). -/
def execOraZp (zp : Byte) (s : State) : Host.Outcome State Fault Refusal := run (busOraZp zp) s

/-- The bus cycles of $09 ORA #imm8 (R413). -/
def busOraImm (imm : Byte) : Bus Unit := immediate (oraA imm)

/-- $09 ORA #imm8 (R413). -/
def execOraImm (imm : Byte) (s : State) : Host.Outcome State Fault Refusal := run (busOraImm imm) s

/-- The bus cycles of $0D ORA abs (R413). -/
def busOraAbs (lo hi : Byte) : Bus Unit := readAbs lo hi oraA

/-- $0D ORA abs (R413). -/
def execOraAbs (lo hi : Byte) (s : State) : Host.Outcome State Fault Refusal := run (busOraAbs lo hi) s

/-- The bus cycles of $11 ORA (zp),Y (R413). -/
def busOraIzy (zp : Byte) : Bus Unit := readIzy zp oraA

/-- $11 ORA (zp),Y (R413). -/
def execOraIzy (zp : Byte) (s : State) : Host.Outcome State Fault Refusal := run (busOraIzy zp) s

/-- The bus cycles of $15 ORA zp,X (R413). -/
def busOraZpx (zp : Byte) : Bus Unit := readZpx zp oraA

/-- $15 ORA zp,X (R413). -/
def execOraZpx (zp : Byte) (s : State) : Host.Outcome State Fault Refusal := run (busOraZpx zp) s

/-- The bus cycles of $19 ORA abs,Y (R413). -/
def busOraAby (lo hi : Byte) : Bus Unit := readAby lo hi oraA

/-- $19 ORA abs,Y (R413). -/
def execOraAby (lo hi : Byte) (s : State) : Host.Outcome State Fault Refusal := run (busOraAby lo hi) s

/-- The bus cycles of $1D ORA abs,X (R413). -/
def busOraAbx (lo hi : Byte) : Bus Unit := readAbx lo hi oraA

/-- $1D ORA abs,X (R413). -/
def execOraAbx (lo hi : Byte) (s : State) : Host.Outcome State Fault Refusal := run (busOraAbx lo hi) s

/-- The bus cycles of $41 EOR (zp,X) (R414). -/
def busEorIzx (zp : Byte) : Bus Unit := readIzx zp eorA

/-- $41 EOR (zp,X) (R414). -/
def execEorIzx (zp : Byte) (s : State) : Host.Outcome State Fault Refusal := run (busEorIzx zp) s

/-- The bus cycles of $45 EOR zp (R414). -/
def busEorZp (zp : Byte) : Bus Unit := readZp zp eorA

/-- $45 EOR zp (R414). -/
def execEorZp (zp : Byte) (s : State) : Host.Outcome State Fault Refusal := run (busEorZp zp) s

/-- The bus cycles of $49 EOR #imm8 (R414). -/
def busEorImm (imm : Byte) : Bus Unit := immediate (eorA imm)

/-- $49 EOR #imm8 (R414). -/
def execEorImm (imm : Byte) (s : State) : Host.Outcome State Fault Refusal := run (busEorImm imm) s

/-- The bus cycles of $4D EOR abs (R414). -/
def busEorAbs (lo hi : Byte) : Bus Unit := readAbs lo hi eorA

/-- $4D EOR abs (R414). -/
def execEorAbs (lo hi : Byte) (s : State) : Host.Outcome State Fault Refusal := run (busEorAbs lo hi) s

/-- The bus cycles of $51 EOR (zp),Y (R414). -/
def busEorIzy (zp : Byte) : Bus Unit := readIzy zp eorA

/-- $51 EOR (zp),Y (R414). -/
def execEorIzy (zp : Byte) (s : State) : Host.Outcome State Fault Refusal := run (busEorIzy zp) s

/-- The bus cycles of $55 EOR zp,X (R414). -/
def busEorZpx (zp : Byte) : Bus Unit := readZpx zp eorA

/-- $55 EOR zp,X (R414). -/
def execEorZpx (zp : Byte) (s : State) : Host.Outcome State Fault Refusal := run (busEorZpx zp) s

/-- The bus cycles of $59 EOR abs,Y (R414). -/
def busEorAby (lo hi : Byte) : Bus Unit := readAby lo hi eorA

/-- $59 EOR abs,Y (R414). -/
def execEorAby (lo hi : Byte) (s : State) : Host.Outcome State Fault Refusal := run (busEorAby lo hi) s

/-- The bus cycles of $5D EOR abs,X (R414). -/
def busEorAbx (lo hi : Byte) : Bus Unit := readAbx lo hi eorA

/-- $5D EOR abs,X (R414). -/
def execEorAbx (lo hi : Byte) (s : State) : Host.Outcome State Fault Refusal := run (busEorAbx lo hi) s

/-- The bus cycles of $24 BIT zp (R418). -/
def busBitZp (zp : Byte) : Bus Unit := readZp zp bitTest

/-- $24 BIT zp (R418). -/
def execBitZp (zp : Byte) (s : State) : Host.Outcome State Fault Refusal := run (busBitZp zp) s

/-- The bus cycles of $2C BIT abs (R418). -/
def busBitAbs (lo hi : Byte) : Bus Unit := readAbs lo hi bitTest

/-- $2C BIT abs (R418). -/
def execBitAbs (lo hi : Byte) (s : State) : Host.Outcome State Fault Refusal := run (busBitAbs lo hi) s

end Sys2Proof.Machine
end

