-- ==== Sys2Proof/Machine/Refused.lean ====
section
/-! DEFINITION. The 48 opcodes that the spec refuses (30_encoding.md R287; 43_undocumented.md R520..R522): "raise
Refused(opcode)" at the opcode fetch (R285), with no effect. -/

namespace Sys2Proof.Machine

/-- $02 JAM (R520): refused. -/
def execJam02 (_s : State) : Host.Outcome State Fault Refusal := .refused (.refusedOpcode 0x02)

/-- $04 NOP zp (R521): refused. -/
def execNopZp04 (_zp : Byte) (_s : State) : Host.Outcome State Fault Refusal := .refused (.refusedOpcode 0x04)

/-- $0C NOP abs (R521): refused. -/
def execNopAbs0C (_lo _hi : Byte) (_s : State) : Host.Outcome State Fault Refusal := .refused (.refusedOpcode 0x0C)

/-- $12 JAM (R520): refused. -/
def execJam12 (_s : State) : Host.Outcome State Fault Refusal := .refused (.refusedOpcode 0x12)

/-- $14 NOP zp,X (R521): refused. -/
def execNopZpx14 (_zp : Byte) (_s : State) : Host.Outcome State Fault Refusal := .refused (.refusedOpcode 0x14)

/-- $1A NOP (R521): refused. -/
def execNop1A (_s : State) : Host.Outcome State Fault Refusal := .refused (.refusedOpcode 0x1A)

/-- $1C NOP abs,X (R521): refused. -/
def execNopAbx1C (_lo _hi : Byte) (_s : State) : Host.Outcome State Fault Refusal := .refused (.refusedOpcode 0x1C)

/-- $22 JAM (R520): refused. -/
def execJam22 (_s : State) : Host.Outcome State Fault Refusal := .refused (.refusedOpcode 0x22)

/-- $32 JAM (R520): refused. -/
def execJam32 (_s : State) : Host.Outcome State Fault Refusal := .refused (.refusedOpcode 0x32)

/-- $34 NOP zp,X (R521): refused. -/
def execNopZpx34 (_zp : Byte) (_s : State) : Host.Outcome State Fault Refusal := .refused (.refusedOpcode 0x34)

/-- $3A NOP (R521): refused. -/
def execNop3A (_s : State) : Host.Outcome State Fault Refusal := .refused (.refusedOpcode 0x3A)

/-- $3C NOP abs,X (R521): refused. -/
def execNopAbx3C (_lo _hi : Byte) (_s : State) : Host.Outcome State Fault Refusal := .refused (.refusedOpcode 0x3C)

/-- $42 JAM (R520): refused. -/
def execJam42 (_s : State) : Host.Outcome State Fault Refusal := .refused (.refusedOpcode 0x42)

/-- $44 NOP zp (R521): refused. -/
def execNopZp44 (_zp : Byte) (_s : State) : Host.Outcome State Fault Refusal := .refused (.refusedOpcode 0x44)

/-- $52 JAM (R520): refused. -/
def execJam52 (_s : State) : Host.Outcome State Fault Refusal := .refused (.refusedOpcode 0x52)

/-- $54 NOP zp,X (R521): refused. -/
def execNopZpx54 (_zp : Byte) (_s : State) : Host.Outcome State Fault Refusal := .refused (.refusedOpcode 0x54)

/-- $5A NOP (R521): refused. -/
def execNop5A (_s : State) : Host.Outcome State Fault Refusal := .refused (.refusedOpcode 0x5A)

/-- $5C NOP abs,X (R521): refused. -/
def execNopAbx5C (_lo _hi : Byte) (_s : State) : Host.Outcome State Fault Refusal := .refused (.refusedOpcode 0x5C)

/-- $62 JAM (R520): refused. -/
def execJam62 (_s : State) : Host.Outcome State Fault Refusal := .refused (.refusedOpcode 0x62)

/-- $64 NOP zp (R521): refused. -/
def execNopZp64 (_zp : Byte) (_s : State) : Host.Outcome State Fault Refusal := .refused (.refusedOpcode 0x64)

/-- $72 JAM (R520): refused. -/
def execJam72 (_s : State) : Host.Outcome State Fault Refusal := .refused (.refusedOpcode 0x72)

/-- $74 NOP zp,X (R521): refused. -/
def execNopZpx74 (_zp : Byte) (_s : State) : Host.Outcome State Fault Refusal := .refused (.refusedOpcode 0x74)

/-- $7A NOP (R521): refused. -/
def execNop7A (_s : State) : Host.Outcome State Fault Refusal := .refused (.refusedOpcode 0x7A)

/-- $7C NOP abs,X (R521): refused. -/
def execNopAbx7C (_lo _hi : Byte) (_s : State) : Host.Outcome State Fault Refusal := .refused (.refusedOpcode 0x7C)

/-- $80 NOP #imm8 (R521): refused. -/
def execNopImm80 (_imm : Byte) (_s : State) : Host.Outcome State Fault Refusal := .refused (.refusedOpcode 0x80)

/-- $82 NOP #imm8 (R521): refused. -/
def execNopImm82 (_imm : Byte) (_s : State) : Host.Outcome State Fault Refusal := .refused (.refusedOpcode 0x82)

/-- $89 NOP #imm8 (R521): refused. -/
def execNopImm89 (_imm : Byte) (_s : State) : Host.Outcome State Fault Refusal := .refused (.refusedOpcode 0x89)

/-- $8B ANE #imm8 (R522): refused. -/
def execAneImm (_imm : Byte) (_s : State) : Host.Outcome State Fault Refusal := .refused (.refusedOpcode 0x8B)

/-- $92 JAM (R520): refused. -/
def execJam92 (_s : State) : Host.Outcome State Fault Refusal := .refused (.refusedOpcode 0x92)

/-- $93 SHA (zp),Y (R522): refused. -/
def execShaIzy (_zp : Byte) (_s : State) : Host.Outcome State Fault Refusal := .refused (.refusedOpcode 0x93)

/-- $9B TAS abs,Y (R522): refused. -/
def execTasAby (_lo _hi : Byte) (_s : State) : Host.Outcome State Fault Refusal := .refused (.refusedOpcode 0x9B)

/-- $9C SHY abs,X (R522): refused. -/
def execShyAbx (_lo _hi : Byte) (_s : State) : Host.Outcome State Fault Refusal := .refused (.refusedOpcode 0x9C)

/-- $9E SHX abs,Y (R522): refused. -/
def execShxAby (_lo _hi : Byte) (_s : State) : Host.Outcome State Fault Refusal := .refused (.refusedOpcode 0x9E)

/-- $9F SHA abs,Y (R522): refused. -/
def execShaAby (_lo _hi : Byte) (_s : State) : Host.Outcome State Fault Refusal := .refused (.refusedOpcode 0x9F)

/-- $AB LXA #imm8 (R522): refused. -/
def execLxaImm (_imm : Byte) (_s : State) : Host.Outcome State Fault Refusal := .refused (.refusedOpcode 0xAB)

/-- $B2 JAM (R520): refused. -/
def execJamB2 (_s : State) : Host.Outcome State Fault Refusal := .refused (.refusedOpcode 0xB2)

/-- $BB LAS abs,Y (R522): refused. -/
def execLasAby (_lo _hi : Byte) (_s : State) : Host.Outcome State Fault Refusal := .refused (.refusedOpcode 0xBB)

/-- $C2 NOP #imm8 (R521): refused. -/
def execNopImmC2 (_imm : Byte) (_s : State) : Host.Outcome State Fault Refusal := .refused (.refusedOpcode 0xC2)

/-- $D2 JAM (R520): refused. -/
def execJamD2 (_s : State) : Host.Outcome State Fault Refusal := .refused (.refusedOpcode 0xD2)

/-- $D4 NOP zp,X (R521): refused. -/
def execNopZpxD4 (_zp : Byte) (_s : State) : Host.Outcome State Fault Refusal := .refused (.refusedOpcode 0xD4)

/-- $DA NOP (R521): refused. -/
def execNopDA (_s : State) : Host.Outcome State Fault Refusal := .refused (.refusedOpcode 0xDA)

/-- $DC NOP abs,X (R521): refused. -/
def execNopAbxDC (_lo _hi : Byte) (_s : State) : Host.Outcome State Fault Refusal := .refused (.refusedOpcode 0xDC)

/-- $E2 NOP #imm8 (R521): refused. -/
def execNopImmE2 (_imm : Byte) (_s : State) : Host.Outcome State Fault Refusal := .refused (.refusedOpcode 0xE2)

/-- $EB USBC #imm8 (R522): refused. -/
def execUsbcImm (_imm : Byte) (_s : State) : Host.Outcome State Fault Refusal := .refused (.refusedOpcode 0xEB)

/-- $F2 JAM (R520): refused. -/
def execJamF2 (_s : State) : Host.Outcome State Fault Refusal := .refused (.refusedOpcode 0xF2)

/-- $F4 NOP zp,X (R521): refused. -/
def execNopZpxF4 (_zp : Byte) (_s : State) : Host.Outcome State Fault Refusal := .refused (.refusedOpcode 0xF4)

/-- $FA NOP (R521): refused. -/
def execNopFA (_s : State) : Host.Outcome State Fault Refusal := .refused (.refusedOpcode 0xFA)

/-- $FC NOP abs,X (R521): refused. -/
def execNopAbxFC (_lo _hi : Byte) (_s : State) : Host.Outcome State Fault Refusal := .refused (.refusedOpcode 0xFC)

end Sys2Proof.Machine
end

