-- ==== Sys2Proof/Machine/Shifts.lean ====
section
/-! DEFINITION. Shifts and rotates (41_arith_logic.md R425..R428). -/

namespace Sys2Proof.Machine

/-- The bus cycles of $06 ASL zp (R425). -/
def busAslZp (zp : Byte) : Bus Unit := rmwZp zp aslM

/-- $06 ASL zp (R425). -/
def execAslZp (zp : Byte) (s : State) : Host.Outcome State Fault Refusal := run (busAslZp zp) s

/-- The bus cycles of $0A ASL A (R425). -/
def busAslAcc : Bus Unit := implied (onA aslM)

/-- $0A ASL A (R425). -/
def execAslAcc (s : State) : Host.Outcome State Fault Refusal := run busAslAcc s

/-- The bus cycles of $0E ASL abs (R425). -/
def busAslAbs (lo hi : Byte) : Bus Unit := rmwAbs lo hi aslM

/-- $0E ASL abs (R425). -/
def execAslAbs (lo hi : Byte) (s : State) : Host.Outcome State Fault Refusal := run (busAslAbs lo hi) s

/-- The bus cycles of $16 ASL zp,X (R425). -/
def busAslZpx (zp : Byte) : Bus Unit := rmwZpx zp aslM

/-- $16 ASL zp,X (R425). -/
def execAslZpx (zp : Byte) (s : State) : Host.Outcome State Fault Refusal := run (busAslZpx zp) s

/-- The bus cycles of $1E ASL abs,X (R425). -/
def busAslAbx (lo hi : Byte) : Bus Unit := rmwAbx lo hi aslM

/-- $1E ASL abs,X (R425). -/
def execAslAbx (lo hi : Byte) (s : State) : Host.Outcome State Fault Refusal := run (busAslAbx lo hi) s

/-- The bus cycles of $46 LSR zp (R426). -/
def busLsrZp (zp : Byte) : Bus Unit := rmwZp zp lsrM

/-- $46 LSR zp (R426). -/
def execLsrZp (zp : Byte) (s : State) : Host.Outcome State Fault Refusal := run (busLsrZp zp) s

/-- The bus cycles of $4A LSR A (R426). -/
def busLsrAcc : Bus Unit := implied (onA lsrM)

/-- $4A LSR A (R426). -/
def execLsrAcc (s : State) : Host.Outcome State Fault Refusal := run busLsrAcc s

/-- The bus cycles of $4E LSR abs (R426). -/
def busLsrAbs (lo hi : Byte) : Bus Unit := rmwAbs lo hi lsrM

/-- $4E LSR abs (R426). -/
def execLsrAbs (lo hi : Byte) (s : State) : Host.Outcome State Fault Refusal := run (busLsrAbs lo hi) s

/-- The bus cycles of $56 LSR zp,X (R426). -/
def busLsrZpx (zp : Byte) : Bus Unit := rmwZpx zp lsrM

/-- $56 LSR zp,X (R426). -/
def execLsrZpx (zp : Byte) (s : State) : Host.Outcome State Fault Refusal := run (busLsrZpx zp) s

/-- The bus cycles of $5E LSR abs,X (R426). -/
def busLsrAbx (lo hi : Byte) : Bus Unit := rmwAbx lo hi lsrM

/-- $5E LSR abs,X (R426). -/
def execLsrAbx (lo hi : Byte) (s : State) : Host.Outcome State Fault Refusal := run (busLsrAbx lo hi) s

/-- The bus cycles of $26 ROL zp (R427). -/
def busRolZp (zp : Byte) : Bus Unit := rmwZp zp rolM

/-- $26 ROL zp (R427). -/
def execRolZp (zp : Byte) (s : State) : Host.Outcome State Fault Refusal := run (busRolZp zp) s

/-- The bus cycles of $2A ROL A (R427). -/
def busRolAcc : Bus Unit := implied (onA rolM)

/-- $2A ROL A (R427). -/
def execRolAcc (s : State) : Host.Outcome State Fault Refusal := run busRolAcc s

/-- The bus cycles of $2E ROL abs (R427). -/
def busRolAbs (lo hi : Byte) : Bus Unit := rmwAbs lo hi rolM

/-- $2E ROL abs (R427). -/
def execRolAbs (lo hi : Byte) (s : State) : Host.Outcome State Fault Refusal := run (busRolAbs lo hi) s

/-- The bus cycles of $36 ROL zp,X (R427). -/
def busRolZpx (zp : Byte) : Bus Unit := rmwZpx zp rolM

/-- $36 ROL zp,X (R427). -/
def execRolZpx (zp : Byte) (s : State) : Host.Outcome State Fault Refusal := run (busRolZpx zp) s

/-- The bus cycles of $3E ROL abs,X (R427). -/
def busRolAbx (lo hi : Byte) : Bus Unit := rmwAbx lo hi rolM

/-- $3E ROL abs,X (R427). -/
def execRolAbx (lo hi : Byte) (s : State) : Host.Outcome State Fault Refusal := run (busRolAbx lo hi) s

/-- The bus cycles of $66 ROR zp (R428). -/
def busRorZp (zp : Byte) : Bus Unit := rmwZp zp rorM

/-- $66 ROR zp (R428). -/
def execRorZp (zp : Byte) (s : State) : Host.Outcome State Fault Refusal := run (busRorZp zp) s

/-- The bus cycles of $6A ROR A (R428). -/
def busRorAcc : Bus Unit := implied (onA rorM)

/-- $6A ROR A (R428). -/
def execRorAcc (s : State) : Host.Outcome State Fault Refusal := run busRorAcc s

/-- The bus cycles of $6E ROR abs (R428). -/
def busRorAbs (lo hi : Byte) : Bus Unit := rmwAbs lo hi rorM

/-- $6E ROR abs (R428). -/
def execRorAbs (lo hi : Byte) (s : State) : Host.Outcome State Fault Refusal := run (busRorAbs lo hi) s

/-- The bus cycles of $76 ROR zp,X (R428). -/
def busRorZpx (zp : Byte) : Bus Unit := rmwZpx zp rorM

/-- $76 ROR zp,X (R428). -/
def execRorZpx (zp : Byte) (s : State) : Host.Outcome State Fault Refusal := run (busRorZpx zp) s

/-- The bus cycles of $7E ROR abs,X (R428). -/
def busRorAbx (lo hi : Byte) : Bus Unit := rmwAbx lo hi rorM

/-- $7E ROR abs,X (R428). -/
def execRorAbx (lo hi : Byte) (s : State) : Host.Outcome State Fault Refusal := run (busRorAbx lo hi) s

end Sys2Proof.Machine
end

