-- ==== Sys2Proof/Machine/Stores.lean ====
section
/-! DEFINITION. Stores (40_addressing_load_store.md R343..R345): write class, R331. -/

namespace Sys2Proof.Machine

/-- The bus cycles of $81 STA (zp,X) (R343). -/
def busStaIzx (zp : Byte) : Bus Unit := writeIzx zp (fun r => r.a)

/-- $81 STA (zp,X) (R343). -/
def execStaIzx (zp : Byte) (s : State) : Host.Outcome State Fault Refusal := run (busStaIzx zp) s

/-- The bus cycles of $85 STA zp (R343). -/
def busStaZp (zp : Byte) : Bus Unit := writeZp zp (fun r => r.a)

/-- $85 STA zp (R343). -/
def execStaZp (zp : Byte) (s : State) : Host.Outcome State Fault Refusal := run (busStaZp zp) s

/-- The bus cycles of $8D STA abs (R343). -/
def busStaAbs (lo hi : Byte) : Bus Unit := writeAbs lo hi (fun r => r.a)

/-- $8D STA abs (R343). -/
def execStaAbs (lo hi : Byte) (s : State) : Host.Outcome State Fault Refusal := run (busStaAbs lo hi) s

/-- The bus cycles of $91 STA (zp),Y (R343). -/
def busStaIzy (zp : Byte) : Bus Unit := writeIzy zp (fun r => r.a)

/-- $91 STA (zp),Y (R343). -/
def execStaIzy (zp : Byte) (s : State) : Host.Outcome State Fault Refusal := run (busStaIzy zp) s

/-- The bus cycles of $95 STA zp,X (R343). -/
def busStaZpx (zp : Byte) : Bus Unit := writeZpx zp (fun r => r.a)

/-- $95 STA zp,X (R343). -/
def execStaZpx (zp : Byte) (s : State) : Host.Outcome State Fault Refusal := run (busStaZpx zp) s

/-- The bus cycles of $99 STA abs,Y (R343). -/
def busStaAby (lo hi : Byte) : Bus Unit := writeAby lo hi (fun r => r.a)

/-- $99 STA abs,Y (R343). -/
def execStaAby (lo hi : Byte) (s : State) : Host.Outcome State Fault Refusal := run (busStaAby lo hi) s

/-- The bus cycles of $9D STA abs,X (R343). -/
def busStaAbx (lo hi : Byte) : Bus Unit := writeAbx lo hi (fun r => r.a)

/-- $9D STA abs,X (R343). -/
def execStaAbx (lo hi : Byte) (s : State) : Host.Outcome State Fault Refusal := run (busStaAbx lo hi) s

/-- The bus cycles of $86 STX zp (R344). -/
def busStxZp (zp : Byte) : Bus Unit := writeZp zp (fun r => r.x)

/-- $86 STX zp (R344). -/
def execStxZp (zp : Byte) (s : State) : Host.Outcome State Fault Refusal := run (busStxZp zp) s

/-- The bus cycles of $8E STX abs (R344). -/
def busStxAbs (lo hi : Byte) : Bus Unit := writeAbs lo hi (fun r => r.x)

/-- $8E STX abs (R344). -/
def execStxAbs (lo hi : Byte) (s : State) : Host.Outcome State Fault Refusal := run (busStxAbs lo hi) s

/-- The bus cycles of $96 STX zp,Y (R344). -/
def busStxZpy (zp : Byte) : Bus Unit := writeZpy zp (fun r => r.x)

/-- $96 STX zp,Y (R344). -/
def execStxZpy (zp : Byte) (s : State) : Host.Outcome State Fault Refusal := run (busStxZpy zp) s

/-- The bus cycles of $84 STY zp (R345). -/
def busStyZp (zp : Byte) : Bus Unit := writeZp zp (fun r => r.y)

/-- $84 STY zp (R345). -/
def execStyZp (zp : Byte) (s : State) : Host.Outcome State Fault Refusal := run (busStyZp zp) s

/-- The bus cycles of $8C STY abs (R345). -/
def busStyAbs (lo hi : Byte) : Bus Unit := writeAbs lo hi (fun r => r.y)

/-- $8C STY abs (R345). -/
def execStyAbs (lo hi : Byte) (s : State) : Host.Outcome State Fault Refusal := run (busStyAbs lo hi) s

/-- The bus cycles of $94 STY zp,X (R345). -/
def busStyZpx (zp : Byte) : Bus Unit := writeZpx zp (fun r => r.y)

/-- $94 STY zp,X (R345). -/
def execStyZpx (zp : Byte) (s : State) : Host.Outcome State Fault Refusal := run (busStyZpx zp) s

end Sys2Proof.Machine
end

