-- ==== Sys2Proof/Machine/Transfers.lean ====
section
/-! DEFINITION. Transfers and stack operations (40_addressing_load_store.md R346..R355). -/

namespace Sys2Proof.Machine

/-- The bus cycles of $AA TAX (R346). -/
def busTax : Bus Unit := implied tax

/-- $AA TAX (R346). -/
def execTax (s : State) : Host.Outcome State Fault Refusal := run busTax s

/-- The bus cycles of $A8 TAY (R347). -/
def busTay : Bus Unit := implied tay

/-- $A8 TAY (R347). -/
def execTay (s : State) : Host.Outcome State Fault Refusal := run busTay s

/-- The bus cycles of $8A TXA (R348). -/
def busTxa : Bus Unit := implied txa

/-- $8A TXA (R348). -/
def execTxa (s : State) : Host.Outcome State Fault Refusal := run busTxa s

/-- The bus cycles of $98 TYA (R349). -/
def busTya : Bus Unit := implied tya

/-- $98 TYA (R349). -/
def execTya (s : State) : Host.Outcome State Fault Refusal := run busTya s

/-- The bus cycles of $BA TSX (R350). -/
def busTsx : Bus Unit := implied tsx

/-- $BA TSX (R350). -/
def execTsx (s : State) : Host.Outcome State Fault Refusal := run busTsx s

/-- The bus cycles of $9A TXS (R351). -/
def busTxs : Bus Unit := implied txs

/-- $9A TXS (R351). -/
def execTxs (s : State) : Host.Outcome State Fault Refusal := run busTxs s

/-- The bus cycles of PHA after its operand fetch (R352). -/
def busPha : Bus Unit := pushRow fun r => r.a

/-- PHA after its operand fetch (R352). -/
def execPha (s : State) : Host.Outcome State Fault Refusal := run busPha s

/-- The bus cycles of PHP after its operand fetch (R353). -/
def busPhp : Bus Unit := pushRow fun r => pImage true r.p

/-- PHP after its operand fetch (R353). -/
def execPhp (s : State) : Host.Outcome State Fault Refusal := run busPhp s

/-- The bus cycles of PLA after its operand fetch (R354). -/
def busPla : Bus Unit := pullRow setA

/-- PLA after its operand fetch (R354). -/
def execPla (s : State) : Host.Outcome State Fault Refusal := run busPla s

/-- The bus cycles of PLP after its operand fetch (R355). -/
def busPlp : Bus Unit := pullRow fun m r => { r with p := Flags.ofByte m }

/-- PLP after its operand fetch (R355). -/
def execPlp (s : State) : Host.Outcome State Fault Refusal := run busPlp s

end Sys2Proof.Machine
end

