-- ==== Sys2Proof/Machine/Undocumented.lean ====
section
/-! DEFINITION. The admitted undocumented opcodes (43_undocumented.md R500..R511). -/

namespace Sys2Proof.Machine

/-- The bus cycles of $A3 LAX (zp,X) (R500). -/
def busLaxIzx (zp : Byte) : Bus Unit := readIzx zp lax

/-- $A3 LAX (zp,X) (R500). -/
def execLaxIzx (zp : Byte) (s : State) : Host.Outcome State Fault Refusal := run (busLaxIzx zp) s

/-- The bus cycles of $A7 LAX zp (R500). -/
def busLaxZp (zp : Byte) : Bus Unit := readZp zp lax

/-- $A7 LAX zp (R500). -/
def execLaxZp (zp : Byte) (s : State) : Host.Outcome State Fault Refusal := run (busLaxZp zp) s

/-- The bus cycles of $AF LAX abs (R500). -/
def busLaxAbs (lo hi : Byte) : Bus Unit := readAbs lo hi lax

/-- $AF LAX abs (R500). -/
def execLaxAbs (lo hi : Byte) (s : State) : Host.Outcome State Fault Refusal := run (busLaxAbs lo hi) s

/-- The bus cycles of $B3 LAX (zp),Y (R500). -/
def busLaxIzy (zp : Byte) : Bus Unit := readIzy zp lax

/-- $B3 LAX (zp),Y (R500). -/
def execLaxIzy (zp : Byte) (s : State) : Host.Outcome State Fault Refusal := run (busLaxIzy zp) s

/-- The bus cycles of $B7 LAX zp,Y (R500). -/
def busLaxZpy (zp : Byte) : Bus Unit := readZpy zp lax

/-- $B7 LAX zp,Y (R500). -/
def execLaxZpy (zp : Byte) (s : State) : Host.Outcome State Fault Refusal := run (busLaxZpy zp) s

/-- The bus cycles of $BF LAX abs,Y (R500). -/
def busLaxAby (lo hi : Byte) : Bus Unit := readAby lo hi lax

/-- $BF LAX abs,Y (R500). -/
def execLaxAby (lo hi : Byte) (s : State) : Host.Outcome State Fault Refusal := run (busLaxAby lo hi) s

/-- The bus cycles of $83 SAX (zp,X) (R501). -/
def busSaxIzx (zp : Byte) : Bus Unit := writeIzx zp (fun r => r.a &&& r.x)

/-- $83 SAX (zp,X) (R501). -/
def execSaxIzx (zp : Byte) (s : State) : Host.Outcome State Fault Refusal := run (busSaxIzx zp) s

/-- The bus cycles of $87 SAX zp (R501). -/
def busSaxZp (zp : Byte) : Bus Unit := writeZp zp (fun r => r.a &&& r.x)

/-- $87 SAX zp (R501). -/
def execSaxZp (zp : Byte) (s : State) : Host.Outcome State Fault Refusal := run (busSaxZp zp) s

/-- The bus cycles of $8F SAX abs (R501). -/
def busSaxAbs (lo hi : Byte) : Bus Unit := writeAbs lo hi (fun r => r.a &&& r.x)

/-- $8F SAX abs (R501). -/
def execSaxAbs (lo hi : Byte) (s : State) : Host.Outcome State Fault Refusal := run (busSaxAbs lo hi) s

/-- The bus cycles of $97 SAX zp,Y (R501). -/
def busSaxZpy (zp : Byte) : Bus Unit := writeZpy zp (fun r => r.a &&& r.x)

/-- $97 SAX zp,Y (R501). -/
def execSaxZpy (zp : Byte) (s : State) : Host.Outcome State Fault Refusal := run (busSaxZpy zp) s

/-- The bus cycles of $C3 DCP (zp,X) (R502). -/
def busDcpIzx (zp : Byte) : Bus Unit := rmwIzx zp dcpM

/-- $C3 DCP (zp,X) (R502). -/
def execDcpIzx (zp : Byte) (s : State) : Host.Outcome State Fault Refusal := run (busDcpIzx zp) s

/-- The bus cycles of $C7 DCP zp (R502). -/
def busDcpZp (zp : Byte) : Bus Unit := rmwZp zp dcpM

/-- $C7 DCP zp (R502). -/
def execDcpZp (zp : Byte) (s : State) : Host.Outcome State Fault Refusal := run (busDcpZp zp) s

/-- The bus cycles of $CF DCP abs (R502). -/
def busDcpAbs (lo hi : Byte) : Bus Unit := rmwAbs lo hi dcpM

/-- $CF DCP abs (R502). -/
def execDcpAbs (lo hi : Byte) (s : State) : Host.Outcome State Fault Refusal := run (busDcpAbs lo hi) s

/-- The bus cycles of $D3 DCP (zp),Y (R502). -/
def busDcpIzy (zp : Byte) : Bus Unit := rmwIzy zp dcpM

/-- $D3 DCP (zp),Y (R502). -/
def execDcpIzy (zp : Byte) (s : State) : Host.Outcome State Fault Refusal := run (busDcpIzy zp) s

/-- The bus cycles of $D7 DCP zp,X (R502). -/
def busDcpZpx (zp : Byte) : Bus Unit := rmwZpx zp dcpM

/-- $D7 DCP zp,X (R502). -/
def execDcpZpx (zp : Byte) (s : State) : Host.Outcome State Fault Refusal := run (busDcpZpx zp) s

/-- The bus cycles of $DB DCP abs,Y (R502). -/
def busDcpAby (lo hi : Byte) : Bus Unit := rmwAby lo hi dcpM

/-- $DB DCP abs,Y (R502). -/
def execDcpAby (lo hi : Byte) (s : State) : Host.Outcome State Fault Refusal := run (busDcpAby lo hi) s

/-- The bus cycles of $DF DCP abs,X (R502). -/
def busDcpAbx (lo hi : Byte) : Bus Unit := rmwAbx lo hi dcpM

/-- $DF DCP abs,X (R502). -/
def execDcpAbx (lo hi : Byte) (s : State) : Host.Outcome State Fault Refusal := run (busDcpAbx lo hi) s

/-- The bus cycles of $E3 ISC (zp,X) (R503). -/
def busIscIzx (zp : Byte) : Bus Unit := rmwIzx zp iscM

/-- $E3 ISC (zp,X) (R503). -/
def execIscIzx (zp : Byte) (s : State) : Host.Outcome State Fault Refusal := run (busIscIzx zp) s

/-- The bus cycles of $E7 ISC zp (R503). -/
def busIscZp (zp : Byte) : Bus Unit := rmwZp zp iscM

/-- $E7 ISC zp (R503). -/
def execIscZp (zp : Byte) (s : State) : Host.Outcome State Fault Refusal := run (busIscZp zp) s

/-- The bus cycles of $EF ISC abs (R503). -/
def busIscAbs (lo hi : Byte) : Bus Unit := rmwAbs lo hi iscM

/-- $EF ISC abs (R503). -/
def execIscAbs (lo hi : Byte) (s : State) : Host.Outcome State Fault Refusal := run (busIscAbs lo hi) s

/-- The bus cycles of $F3 ISC (zp),Y (R503). -/
def busIscIzy (zp : Byte) : Bus Unit := rmwIzy zp iscM

/-- $F3 ISC (zp),Y (R503). -/
def execIscIzy (zp : Byte) (s : State) : Host.Outcome State Fault Refusal := run (busIscIzy zp) s

/-- The bus cycles of $F7 ISC zp,X (R503). -/
def busIscZpx (zp : Byte) : Bus Unit := rmwZpx zp iscM

/-- $F7 ISC zp,X (R503). -/
def execIscZpx (zp : Byte) (s : State) : Host.Outcome State Fault Refusal := run (busIscZpx zp) s

/-- The bus cycles of $FB ISC abs,Y (R503). -/
def busIscAby (lo hi : Byte) : Bus Unit := rmwAby lo hi iscM

/-- $FB ISC abs,Y (R503). -/
def execIscAby (lo hi : Byte) (s : State) : Host.Outcome State Fault Refusal := run (busIscAby lo hi) s

/-- The bus cycles of $FF ISC abs,X (R503). -/
def busIscAbx (lo hi : Byte) : Bus Unit := rmwAbx lo hi iscM

/-- $FF ISC abs,X (R503). -/
def execIscAbx (lo hi : Byte) (s : State) : Host.Outcome State Fault Refusal := run (busIscAbx lo hi) s

/-- The bus cycles of $23 RLA (zp,X) (R504). -/
def busRlaIzx (zp : Byte) : Bus Unit := rmwIzx zp rlaM

/-- $23 RLA (zp,X) (R504). -/
def execRlaIzx (zp : Byte) (s : State) : Host.Outcome State Fault Refusal := run (busRlaIzx zp) s

/-- The bus cycles of $27 RLA zp (R504). -/
def busRlaZp (zp : Byte) : Bus Unit := rmwZp zp rlaM

/-- $27 RLA zp (R504). -/
def execRlaZp (zp : Byte) (s : State) : Host.Outcome State Fault Refusal := run (busRlaZp zp) s

/-- The bus cycles of $2F RLA abs (R504). -/
def busRlaAbs (lo hi : Byte) : Bus Unit := rmwAbs lo hi rlaM

/-- $2F RLA abs (R504). -/
def execRlaAbs (lo hi : Byte) (s : State) : Host.Outcome State Fault Refusal := run (busRlaAbs lo hi) s

/-- The bus cycles of $33 RLA (zp),Y (R504). -/
def busRlaIzy (zp : Byte) : Bus Unit := rmwIzy zp rlaM

/-- $33 RLA (zp),Y (R504). -/
def execRlaIzy (zp : Byte) (s : State) : Host.Outcome State Fault Refusal := run (busRlaIzy zp) s

/-- The bus cycles of $37 RLA zp,X (R504). -/
def busRlaZpx (zp : Byte) : Bus Unit := rmwZpx zp rlaM

/-- $37 RLA zp,X (R504). -/
def execRlaZpx (zp : Byte) (s : State) : Host.Outcome State Fault Refusal := run (busRlaZpx zp) s

/-- The bus cycles of $3B RLA abs,Y (R504). -/
def busRlaAby (lo hi : Byte) : Bus Unit := rmwAby lo hi rlaM

/-- $3B RLA abs,Y (R504). -/
def execRlaAby (lo hi : Byte) (s : State) : Host.Outcome State Fault Refusal := run (busRlaAby lo hi) s

/-- The bus cycles of $3F RLA abs,X (R504). -/
def busRlaAbx (lo hi : Byte) : Bus Unit := rmwAbx lo hi rlaM

/-- $3F RLA abs,X (R504). -/
def execRlaAbx (lo hi : Byte) (s : State) : Host.Outcome State Fault Refusal := run (busRlaAbx lo hi) s

/-- The bus cycles of $63 RRA (zp,X) (R505). -/
def busRraIzx (zp : Byte) : Bus Unit := rmwIzx zp rraM

/-- $63 RRA (zp,X) (R505). -/
def execRraIzx (zp : Byte) (s : State) : Host.Outcome State Fault Refusal := run (busRraIzx zp) s

/-- The bus cycles of $67 RRA zp (R505). -/
def busRraZp (zp : Byte) : Bus Unit := rmwZp zp rraM

/-- $67 RRA zp (R505). -/
def execRraZp (zp : Byte) (s : State) : Host.Outcome State Fault Refusal := run (busRraZp zp) s

/-- The bus cycles of $6F RRA abs (R505). -/
def busRraAbs (lo hi : Byte) : Bus Unit := rmwAbs lo hi rraM

/-- $6F RRA abs (R505). -/
def execRraAbs (lo hi : Byte) (s : State) : Host.Outcome State Fault Refusal := run (busRraAbs lo hi) s

/-- The bus cycles of $73 RRA (zp),Y (R505). -/
def busRraIzy (zp : Byte) : Bus Unit := rmwIzy zp rraM

/-- $73 RRA (zp),Y (R505). -/
def execRraIzy (zp : Byte) (s : State) : Host.Outcome State Fault Refusal := run (busRraIzy zp) s

/-- The bus cycles of $77 RRA zp,X (R505). -/
def busRraZpx (zp : Byte) : Bus Unit := rmwZpx zp rraM

/-- $77 RRA zp,X (R505). -/
def execRraZpx (zp : Byte) (s : State) : Host.Outcome State Fault Refusal := run (busRraZpx zp) s

/-- The bus cycles of $7B RRA abs,Y (R505). -/
def busRraAby (lo hi : Byte) : Bus Unit := rmwAby lo hi rraM

/-- $7B RRA abs,Y (R505). -/
def execRraAby (lo hi : Byte) (s : State) : Host.Outcome State Fault Refusal := run (busRraAby lo hi) s

/-- The bus cycles of $7F RRA abs,X (R505). -/
def busRraAbx (lo hi : Byte) : Bus Unit := rmwAbx lo hi rraM

/-- $7F RRA abs,X (R505). -/
def execRraAbx (lo hi : Byte) (s : State) : Host.Outcome State Fault Refusal := run (busRraAbx lo hi) s

/-- The bus cycles of $03 SLO (zp,X) (R506). -/
def busSloIzx (zp : Byte) : Bus Unit := rmwIzx zp sloM

/-- $03 SLO (zp,X) (R506). -/
def execSloIzx (zp : Byte) (s : State) : Host.Outcome State Fault Refusal := run (busSloIzx zp) s

/-- The bus cycles of $07 SLO zp (R506). -/
def busSloZp (zp : Byte) : Bus Unit := rmwZp zp sloM

/-- $07 SLO zp (R506). -/
def execSloZp (zp : Byte) (s : State) : Host.Outcome State Fault Refusal := run (busSloZp zp) s

/-- The bus cycles of $0F SLO abs (R506). -/
def busSloAbs (lo hi : Byte) : Bus Unit := rmwAbs lo hi sloM

/-- $0F SLO abs (R506). -/
def execSloAbs (lo hi : Byte) (s : State) : Host.Outcome State Fault Refusal := run (busSloAbs lo hi) s

/-- The bus cycles of $13 SLO (zp),Y (R506). -/
def busSloIzy (zp : Byte) : Bus Unit := rmwIzy zp sloM

/-- $13 SLO (zp),Y (R506). -/
def execSloIzy (zp : Byte) (s : State) : Host.Outcome State Fault Refusal := run (busSloIzy zp) s

/-- The bus cycles of $17 SLO zp,X (R506). -/
def busSloZpx (zp : Byte) : Bus Unit := rmwZpx zp sloM

/-- $17 SLO zp,X (R506). -/
def execSloZpx (zp : Byte) (s : State) : Host.Outcome State Fault Refusal := run (busSloZpx zp) s

/-- The bus cycles of $1B SLO abs,Y (R506). -/
def busSloAby (lo hi : Byte) : Bus Unit := rmwAby lo hi sloM

/-- $1B SLO abs,Y (R506). -/
def execSloAby (lo hi : Byte) (s : State) : Host.Outcome State Fault Refusal := run (busSloAby lo hi) s

/-- The bus cycles of $1F SLO abs,X (R506). -/
def busSloAbx (lo hi : Byte) : Bus Unit := rmwAbx lo hi sloM

/-- $1F SLO abs,X (R506). -/
def execSloAbx (lo hi : Byte) (s : State) : Host.Outcome State Fault Refusal := run (busSloAbx lo hi) s

/-- The bus cycles of $43 SRE (zp,X) (R507). -/
def busSreIzx (zp : Byte) : Bus Unit := rmwIzx zp sreM

/-- $43 SRE (zp,X) (R507). -/
def execSreIzx (zp : Byte) (s : State) : Host.Outcome State Fault Refusal := run (busSreIzx zp) s

/-- The bus cycles of $47 SRE zp (R507). -/
def busSreZp (zp : Byte) : Bus Unit := rmwZp zp sreM

/-- $47 SRE zp (R507). -/
def execSreZp (zp : Byte) (s : State) : Host.Outcome State Fault Refusal := run (busSreZp zp) s

/-- The bus cycles of $4F SRE abs (R507). -/
def busSreAbs (lo hi : Byte) : Bus Unit := rmwAbs lo hi sreM

/-- $4F SRE abs (R507). -/
def execSreAbs (lo hi : Byte) (s : State) : Host.Outcome State Fault Refusal := run (busSreAbs lo hi) s

/-- The bus cycles of $53 SRE (zp),Y (R507). -/
def busSreIzy (zp : Byte) : Bus Unit := rmwIzy zp sreM

/-- $53 SRE (zp),Y (R507). -/
def execSreIzy (zp : Byte) (s : State) : Host.Outcome State Fault Refusal := run (busSreIzy zp) s

/-- The bus cycles of $57 SRE zp,X (R507). -/
def busSreZpx (zp : Byte) : Bus Unit := rmwZpx zp sreM

/-- $57 SRE zp,X (R507). -/
def execSreZpx (zp : Byte) (s : State) : Host.Outcome State Fault Refusal := run (busSreZpx zp) s

/-- The bus cycles of $5B SRE abs,Y (R507). -/
def busSreAby (lo hi : Byte) : Bus Unit := rmwAby lo hi sreM

/-- $5B SRE abs,Y (R507). -/
def execSreAby (lo hi : Byte) (s : State) : Host.Outcome State Fault Refusal := run (busSreAby lo hi) s

/-- The bus cycles of $5F SRE abs,X (R507). -/
def busSreAbx (lo hi : Byte) : Bus Unit := rmwAbx lo hi sreM

/-- $5F SRE abs,X (R507). -/
def execSreAbx (lo hi : Byte) (s : State) : Host.Outcome State Fault Refusal := run (busSreAbx lo hi) s

/-- The bus cycles of $0B ANC #imm8 (R508). -/
def busAncImm0B (imm : Byte) : Bus Unit := immediate (anc imm)

/-- $0B ANC #imm8 (R508). -/
def execAncImm0B (imm : Byte) (s : State) : Host.Outcome State Fault Refusal := run (busAncImm0B imm) s

/-- The bus cycles of $2B ANC #imm8 (R508). -/
def busAncImm2B (imm : Byte) : Bus Unit := immediate (anc imm)

/-- $2B ANC #imm8 (R508). -/
def execAncImm2B (imm : Byte) (s : State) : Host.Outcome State Fault Refusal := run (busAncImm2B imm) s

/-- The bus cycles of $4B ALR #imm8 (R509). -/
def busAlrImm (imm : Byte) : Bus Unit := immediate (alr imm)

/-- $4B ALR #imm8 (R509). -/
def execAlrImm (imm : Byte) (s : State) : Host.Outcome State Fault Refusal := run (busAlrImm imm) s

/-- The bus cycles of $6B ARR #imm8 (R510). -/
def busArrImm (imm : Byte) : Bus Unit := immediate (arr imm)

/-- $6B ARR #imm8 (R510). -/
def execArrImm (imm : Byte) (s : State) : Host.Outcome State Fault Refusal := run (busArrImm imm) s

/-- The bus cycles of $CB SBX #imm8 (R511). -/
def busSbxImm (imm : Byte) : Bus Unit := immediate (sbx imm)

/-- $CB SBX #imm8 (R511). -/
def execSbxImm (imm : Byte) (s : State) : Host.Outcome State Fault Refusal := run (busSbxImm imm) s

end Sys2Proof.Machine
end

