-- ==== Sys2Proof/Machine/Dispatch.lean ====
section
/-! DEFINITION. One arm per constructor of Instr: the meaning of every row of the opcode map (R284). -/

namespace Sys2Proof.Machine

def exec (i : Instr) (s : State) : Host.Outcome State Fault Refusal :=
  match i with
  | .brk => Sys2Proof.Machine.execBrk s
  | .oraIzx zp => Sys2Proof.Machine.execOraIzx zp s
  | .jam02 => Sys2Proof.Machine.execJam02 s
  | .sloIzx zp => Sys2Proof.Machine.execSloIzx zp s
  | .nopZp04 zp => Sys2Proof.Machine.execNopZp04 zp s
  | .oraZp zp => Sys2Proof.Machine.execOraZp zp s
  | .aslZp zp => Sys2Proof.Machine.execAslZp zp s
  | .sloZp zp => Sys2Proof.Machine.execSloZp zp s
  | .php => Sys2Proof.Machine.execPhp s
  | .oraImm imm => Sys2Proof.Machine.execOraImm imm s
  | .aslAcc => Sys2Proof.Machine.execAslAcc s
  | .ancImm0B imm => Sys2Proof.Machine.execAncImm0B imm s
  | .nopAbs0C lo hi => Sys2Proof.Machine.execNopAbs0C lo hi s
  | .oraAbs lo hi => Sys2Proof.Machine.execOraAbs lo hi s
  | .aslAbs lo hi => Sys2Proof.Machine.execAslAbs lo hi s
  | .sloAbs lo hi => Sys2Proof.Machine.execSloAbs lo hi s
  | .bplRel off => Sys2Proof.Machine.execBplRel off s
  | .oraIzy zp => Sys2Proof.Machine.execOraIzy zp s
  | .jam12 => Sys2Proof.Machine.execJam12 s
  | .sloIzy zp => Sys2Proof.Machine.execSloIzy zp s
  | .nopZpx14 zp => Sys2Proof.Machine.execNopZpx14 zp s
  | .oraZpx zp => Sys2Proof.Machine.execOraZpx zp s
  | .aslZpx zp => Sys2Proof.Machine.execAslZpx zp s
  | .sloZpx zp => Sys2Proof.Machine.execSloZpx zp s
  | .clc => Sys2Proof.Machine.execClc s
  | .oraAby lo hi => Sys2Proof.Machine.execOraAby lo hi s
  | .nop1A => Sys2Proof.Machine.execNop1A s
  | .sloAby lo hi => Sys2Proof.Machine.execSloAby lo hi s
  | .nopAbx1C lo hi => Sys2Proof.Machine.execNopAbx1C lo hi s
  | .oraAbx lo hi => Sys2Proof.Machine.execOraAbx lo hi s
  | .aslAbx lo hi => Sys2Proof.Machine.execAslAbx lo hi s
  | .sloAbx lo hi => Sys2Proof.Machine.execSloAbx lo hi s
  | .jsrAbs lo hi => Sys2Proof.Machine.execJsrAbs lo hi s
  | .andIzx zp => Sys2Proof.Machine.execAndIzx zp s
  | .jam22 => Sys2Proof.Machine.execJam22 s
  | .rlaIzx zp => Sys2Proof.Machine.execRlaIzx zp s
  | .bitZp zp => Sys2Proof.Machine.execBitZp zp s
  | .andZp zp => Sys2Proof.Machine.execAndZp zp s
  | .rolZp zp => Sys2Proof.Machine.execRolZp zp s
  | .rlaZp zp => Sys2Proof.Machine.execRlaZp zp s
  | .plp => Sys2Proof.Machine.execPlp s
  | .andImm imm => Sys2Proof.Machine.execAndImm imm s
  | .rolAcc => Sys2Proof.Machine.execRolAcc s
  | .ancImm2B imm => Sys2Proof.Machine.execAncImm2B imm s
  | .bitAbs lo hi => Sys2Proof.Machine.execBitAbs lo hi s
  | .andAbs lo hi => Sys2Proof.Machine.execAndAbs lo hi s
  | .rolAbs lo hi => Sys2Proof.Machine.execRolAbs lo hi s
  | .rlaAbs lo hi => Sys2Proof.Machine.execRlaAbs lo hi s
  | .bmiRel off => Sys2Proof.Machine.execBmiRel off s
  | .andIzy zp => Sys2Proof.Machine.execAndIzy zp s
  | .jam32 => Sys2Proof.Machine.execJam32 s
  | .rlaIzy zp => Sys2Proof.Machine.execRlaIzy zp s
  | .nopZpx34 zp => Sys2Proof.Machine.execNopZpx34 zp s
  | .andZpx zp => Sys2Proof.Machine.execAndZpx zp s
  | .rolZpx zp => Sys2Proof.Machine.execRolZpx zp s
  | .rlaZpx zp => Sys2Proof.Machine.execRlaZpx zp s
  | .sec => Sys2Proof.Machine.execSec s
  | .andAby lo hi => Sys2Proof.Machine.execAndAby lo hi s
  | .nop3A => Sys2Proof.Machine.execNop3A s
  | .rlaAby lo hi => Sys2Proof.Machine.execRlaAby lo hi s
  | .nopAbx3C lo hi => Sys2Proof.Machine.execNopAbx3C lo hi s
  | .andAbx lo hi => Sys2Proof.Machine.execAndAbx lo hi s
  | .rolAbx lo hi => Sys2Proof.Machine.execRolAbx lo hi s
  | .rlaAbx lo hi => Sys2Proof.Machine.execRlaAbx lo hi s
  | .rti => Sys2Proof.Machine.execRti s
  | .eorIzx zp => Sys2Proof.Machine.execEorIzx zp s
  | .jam42 => Sys2Proof.Machine.execJam42 s
  | .sreIzx zp => Sys2Proof.Machine.execSreIzx zp s
  | .nopZp44 zp => Sys2Proof.Machine.execNopZp44 zp s
  | .eorZp zp => Sys2Proof.Machine.execEorZp zp s
  | .lsrZp zp => Sys2Proof.Machine.execLsrZp zp s
  | .sreZp zp => Sys2Proof.Machine.execSreZp zp s
  | .pha => Sys2Proof.Machine.execPha s
  | .eorImm imm => Sys2Proof.Machine.execEorImm imm s
  | .lsrAcc => Sys2Proof.Machine.execLsrAcc s
  | .alrImm imm => Sys2Proof.Machine.execAlrImm imm s
  | .jmpAbs lo hi => Sys2Proof.Machine.execJmpAbs lo hi s
  | .eorAbs lo hi => Sys2Proof.Machine.execEorAbs lo hi s
  | .lsrAbs lo hi => Sys2Proof.Machine.execLsrAbs lo hi s
  | .sreAbs lo hi => Sys2Proof.Machine.execSreAbs lo hi s
  | .bvcRel off => Sys2Proof.Machine.execBvcRel off s
  | .eorIzy zp => Sys2Proof.Machine.execEorIzy zp s
  | .jam52 => Sys2Proof.Machine.execJam52 s
  | .sreIzy zp => Sys2Proof.Machine.execSreIzy zp s
  | .nopZpx54 zp => Sys2Proof.Machine.execNopZpx54 zp s
  | .eorZpx zp => Sys2Proof.Machine.execEorZpx zp s
  | .lsrZpx zp => Sys2Proof.Machine.execLsrZpx zp s
  | .sreZpx zp => Sys2Proof.Machine.execSreZpx zp s
  | .cli => Sys2Proof.Machine.execCli s
  | .eorAby lo hi => Sys2Proof.Machine.execEorAby lo hi s
  | .nop5A => Sys2Proof.Machine.execNop5A s
  | .sreAby lo hi => Sys2Proof.Machine.execSreAby lo hi s
  | .nopAbx5C lo hi => Sys2Proof.Machine.execNopAbx5C lo hi s
  | .eorAbx lo hi => Sys2Proof.Machine.execEorAbx lo hi s
  | .lsrAbx lo hi => Sys2Proof.Machine.execLsrAbx lo hi s
  | .sreAbx lo hi => Sys2Proof.Machine.execSreAbx lo hi s
  | .rts => Sys2Proof.Machine.execRts s
  | .adcIzx zp => Sys2Proof.Machine.execAdcIzx zp s
  | .jam62 => Sys2Proof.Machine.execJam62 s
  | .rraIzx zp => Sys2Proof.Machine.execRraIzx zp s
  | .nopZp64 zp => Sys2Proof.Machine.execNopZp64 zp s
  | .adcZp zp => Sys2Proof.Machine.execAdcZp zp s
  | .rorZp zp => Sys2Proof.Machine.execRorZp zp s
  | .rraZp zp => Sys2Proof.Machine.execRraZp zp s
  | .pla => Sys2Proof.Machine.execPla s
  | .adcImm imm => Sys2Proof.Machine.execAdcImm imm s
  | .rorAcc => Sys2Proof.Machine.execRorAcc s
  | .arrImm imm => Sys2Proof.Machine.execArrImm imm s
  | .jmpInd lo hi => Sys2Proof.Machine.execJmpInd lo hi s
  | .adcAbs lo hi => Sys2Proof.Machine.execAdcAbs lo hi s
  | .rorAbs lo hi => Sys2Proof.Machine.execRorAbs lo hi s
  | .rraAbs lo hi => Sys2Proof.Machine.execRraAbs lo hi s
  | .bvsRel off => Sys2Proof.Machine.execBvsRel off s
  | .adcIzy zp => Sys2Proof.Machine.execAdcIzy zp s
  | .jam72 => Sys2Proof.Machine.execJam72 s
  | .rraIzy zp => Sys2Proof.Machine.execRraIzy zp s
  | .nopZpx74 zp => Sys2Proof.Machine.execNopZpx74 zp s
  | .adcZpx zp => Sys2Proof.Machine.execAdcZpx zp s
  | .rorZpx zp => Sys2Proof.Machine.execRorZpx zp s
  | .rraZpx zp => Sys2Proof.Machine.execRraZpx zp s
  | .sei => Sys2Proof.Machine.execSei s
  | .adcAby lo hi => Sys2Proof.Machine.execAdcAby lo hi s
  | .nop7A => Sys2Proof.Machine.execNop7A s
  | .rraAby lo hi => Sys2Proof.Machine.execRraAby lo hi s
  | .nopAbx7C lo hi => Sys2Proof.Machine.execNopAbx7C lo hi s
  | .adcAbx lo hi => Sys2Proof.Machine.execAdcAbx lo hi s
  | .rorAbx lo hi => Sys2Proof.Machine.execRorAbx lo hi s
  | .rraAbx lo hi => Sys2Proof.Machine.execRraAbx lo hi s
  | .nopImm80 imm => Sys2Proof.Machine.execNopImm80 imm s
  | .staIzx zp => Sys2Proof.Machine.execStaIzx zp s
  | .nopImm82 imm => Sys2Proof.Machine.execNopImm82 imm s
  | .saxIzx zp => Sys2Proof.Machine.execSaxIzx zp s
  | .styZp zp => Sys2Proof.Machine.execStyZp zp s
  | .staZp zp => Sys2Proof.Machine.execStaZp zp s
  | .stxZp zp => Sys2Proof.Machine.execStxZp zp s
  | .saxZp zp => Sys2Proof.Machine.execSaxZp zp s
  | .dey => Sys2Proof.Machine.execDey s
  | .nopImm89 imm => Sys2Proof.Machine.execNopImm89 imm s
  | .txa => Sys2Proof.Machine.execTxa s
  | .aneImm imm => Sys2Proof.Machine.execAneImm imm s
  | .styAbs lo hi => Sys2Proof.Machine.execStyAbs lo hi s
  | .staAbs lo hi => Sys2Proof.Machine.execStaAbs lo hi s
  | .stxAbs lo hi => Sys2Proof.Machine.execStxAbs lo hi s
  | .saxAbs lo hi => Sys2Proof.Machine.execSaxAbs lo hi s
  | .bccRel off => Sys2Proof.Machine.execBccRel off s
  | .staIzy zp => Sys2Proof.Machine.execStaIzy zp s
  | .jam92 => Sys2Proof.Machine.execJam92 s
  | .shaIzy zp => Sys2Proof.Machine.execShaIzy zp s
  | .styZpx zp => Sys2Proof.Machine.execStyZpx zp s
  | .staZpx zp => Sys2Proof.Machine.execStaZpx zp s
  | .stxZpy zp => Sys2Proof.Machine.execStxZpy zp s
  | .saxZpy zp => Sys2Proof.Machine.execSaxZpy zp s
  | .tya => Sys2Proof.Machine.execTya s
  | .staAby lo hi => Sys2Proof.Machine.execStaAby lo hi s
  | .txs => Sys2Proof.Machine.execTxs s
  | .tasAby lo hi => Sys2Proof.Machine.execTasAby lo hi s
  | .shyAbx lo hi => Sys2Proof.Machine.execShyAbx lo hi s
  | .staAbx lo hi => Sys2Proof.Machine.execStaAbx lo hi s
  | .shxAby lo hi => Sys2Proof.Machine.execShxAby lo hi s
  | .shaAby lo hi => Sys2Proof.Machine.execShaAby lo hi s
  | .ldyImm imm => Sys2Proof.Machine.execLdyImm imm s
  | .ldaIzx zp => Sys2Proof.Machine.execLdaIzx zp s
  | .ldxImm imm => Sys2Proof.Machine.execLdxImm imm s
  | .laxIzx zp => Sys2Proof.Machine.execLaxIzx zp s
  | .ldyZp zp => Sys2Proof.Machine.execLdyZp zp s
  | .ldaZp zp => Sys2Proof.Machine.execLdaZp zp s
  | .ldxZp zp => Sys2Proof.Machine.execLdxZp zp s
  | .laxZp zp => Sys2Proof.Machine.execLaxZp zp s
  | .tay => Sys2Proof.Machine.execTay s
  | .ldaImm imm => Sys2Proof.Machine.execLdaImm imm s
  | .tax => Sys2Proof.Machine.execTax s
  | .lxaImm imm => Sys2Proof.Machine.execLxaImm imm s
  | .ldyAbs lo hi => Sys2Proof.Machine.execLdyAbs lo hi s
  | .ldaAbs lo hi => Sys2Proof.Machine.execLdaAbs lo hi s
  | .ldxAbs lo hi => Sys2Proof.Machine.execLdxAbs lo hi s
  | .laxAbs lo hi => Sys2Proof.Machine.execLaxAbs lo hi s
  | .bcsRel off => Sys2Proof.Machine.execBcsRel off s
  | .ldaIzy zp => Sys2Proof.Machine.execLdaIzy zp s
  | .jamB2 => Sys2Proof.Machine.execJamB2 s
  | .laxIzy zp => Sys2Proof.Machine.execLaxIzy zp s
  | .ldyZpx zp => Sys2Proof.Machine.execLdyZpx zp s
  | .ldaZpx zp => Sys2Proof.Machine.execLdaZpx zp s
  | .ldxZpy zp => Sys2Proof.Machine.execLdxZpy zp s
  | .laxZpy zp => Sys2Proof.Machine.execLaxZpy zp s
  | .clv => Sys2Proof.Machine.execClv s
  | .ldaAby lo hi => Sys2Proof.Machine.execLdaAby lo hi s
  | .tsx => Sys2Proof.Machine.execTsx s
  | .lasAby lo hi => Sys2Proof.Machine.execLasAby lo hi s
  | .ldyAbx lo hi => Sys2Proof.Machine.execLdyAbx lo hi s
  | .ldaAbx lo hi => Sys2Proof.Machine.execLdaAbx lo hi s
  | .ldxAby lo hi => Sys2Proof.Machine.execLdxAby lo hi s
  | .laxAby lo hi => Sys2Proof.Machine.execLaxAby lo hi s
  | .cpyImm imm => Sys2Proof.Machine.execCpyImm imm s
  | .cmpIzx zp => Sys2Proof.Machine.execCmpIzx zp s
  | .nopImmC2 imm => Sys2Proof.Machine.execNopImmC2 imm s
  | .dcpIzx zp => Sys2Proof.Machine.execDcpIzx zp s
  | .cpyZp zp => Sys2Proof.Machine.execCpyZp zp s
  | .cmpZp zp => Sys2Proof.Machine.execCmpZp zp s
  | .decZp zp => Sys2Proof.Machine.execDecZp zp s
  | .dcpZp zp => Sys2Proof.Machine.execDcpZp zp s
  | .iny => Sys2Proof.Machine.execIny s
  | .cmpImm imm => Sys2Proof.Machine.execCmpImm imm s
  | .dex => Sys2Proof.Machine.execDex s
  | .sbxImm imm => Sys2Proof.Machine.execSbxImm imm s
  | .cpyAbs lo hi => Sys2Proof.Machine.execCpyAbs lo hi s
  | .cmpAbs lo hi => Sys2Proof.Machine.execCmpAbs lo hi s
  | .decAbs lo hi => Sys2Proof.Machine.execDecAbs lo hi s
  | .dcpAbs lo hi => Sys2Proof.Machine.execDcpAbs lo hi s
  | .bneRel off => Sys2Proof.Machine.execBneRel off s
  | .cmpIzy zp => Sys2Proof.Machine.execCmpIzy zp s
  | .jamD2 => Sys2Proof.Machine.execJamD2 s
  | .dcpIzy zp => Sys2Proof.Machine.execDcpIzy zp s
  | .nopZpxD4 zp => Sys2Proof.Machine.execNopZpxD4 zp s
  | .cmpZpx zp => Sys2Proof.Machine.execCmpZpx zp s
  | .decZpx zp => Sys2Proof.Machine.execDecZpx zp s
  | .dcpZpx zp => Sys2Proof.Machine.execDcpZpx zp s
  | .cld => Sys2Proof.Machine.execCld s
  | .cmpAby lo hi => Sys2Proof.Machine.execCmpAby lo hi s
  | .nopDA => Sys2Proof.Machine.execNopDA s
  | .dcpAby lo hi => Sys2Proof.Machine.execDcpAby lo hi s
  | .nopAbxDC lo hi => Sys2Proof.Machine.execNopAbxDC lo hi s
  | .cmpAbx lo hi => Sys2Proof.Machine.execCmpAbx lo hi s
  | .decAbx lo hi => Sys2Proof.Machine.execDecAbx lo hi s
  | .dcpAbx lo hi => Sys2Proof.Machine.execDcpAbx lo hi s
  | .cpxImm imm => Sys2Proof.Machine.execCpxImm imm s
  | .sbcIzx zp => Sys2Proof.Machine.execSbcIzx zp s
  | .nopImmE2 imm => Sys2Proof.Machine.execNopImmE2 imm s
  | .iscIzx zp => Sys2Proof.Machine.execIscIzx zp s
  | .cpxZp zp => Sys2Proof.Machine.execCpxZp zp s
  | .sbcZp zp => Sys2Proof.Machine.execSbcZp zp s
  | .incZp zp => Sys2Proof.Machine.execIncZp zp s
  | .iscZp zp => Sys2Proof.Machine.execIscZp zp s
  | .inx => Sys2Proof.Machine.execInx s
  | .sbcImm imm => Sys2Proof.Machine.execSbcImm imm s
  | .nop => Sys2Proof.Machine.execNop s
  | .usbcImm imm => Sys2Proof.Machine.execUsbcImm imm s
  | .cpxAbs lo hi => Sys2Proof.Machine.execCpxAbs lo hi s
  | .sbcAbs lo hi => Sys2Proof.Machine.execSbcAbs lo hi s
  | .incAbs lo hi => Sys2Proof.Machine.execIncAbs lo hi s
  | .iscAbs lo hi => Sys2Proof.Machine.execIscAbs lo hi s
  | .beqRel off => Sys2Proof.Machine.execBeqRel off s
  | .sbcIzy zp => Sys2Proof.Machine.execSbcIzy zp s
  | .jamF2 => Sys2Proof.Machine.execJamF2 s
  | .iscIzy zp => Sys2Proof.Machine.execIscIzy zp s
  | .nopZpxF4 zp => Sys2Proof.Machine.execNopZpxF4 zp s
  | .sbcZpx zp => Sys2Proof.Machine.execSbcZpx zp s
  | .incZpx zp => Sys2Proof.Machine.execIncZpx zp s
  | .iscZpx zp => Sys2Proof.Machine.execIscZpx zp s
  | .sed => Sys2Proof.Machine.execSed s
  | .sbcAby lo hi => Sys2Proof.Machine.execSbcAby lo hi s
  | .nopFA => Sys2Proof.Machine.execNopFA s
  | .iscAby lo hi => Sys2Proof.Machine.execIscAby lo hi s
  | .nopAbxFC lo hi => Sys2Proof.Machine.execNopAbxFC lo hi s
  | .sbcAbx lo hi => Sys2Proof.Machine.execSbcAbx lo hi s
  | .incAbx lo hi => Sys2Proof.Machine.execIncAbx lo hi s
  | .iscAbx lo hi => Sys2Proof.Machine.execIscAbx lo hi s

end Sys2Proof.Machine
end

