-- ==== Sys2Proof/Machine/Programs.lean ====
section
/-! DEFINITION. The bus cycles of every instruction after its operand fetch, by constructor of Instr: what `exec` runs
to the end, and what `stepCycle` runs cycle by cycle (64_clock_bus.md R781, R782). -/

namespace Sys2Proof.Machine

/-- The bus cycles of an instruction after its operand fetch; a refused opcode has none (R285). -/
def busOf (i : Instr) : Option (Bus Unit) :=
  match i with
  | .brk => some busBrk
  | .oraIzx zp => some (busOraIzx zp)
  | .jam02 => none
  | .sloIzx zp => some (busSloIzx zp)
  | .nopZp04 _ => none
  | .oraZp zp => some (busOraZp zp)
  | .aslZp zp => some (busAslZp zp)
  | .sloZp zp => some (busSloZp zp)
  | .php => some busPhp
  | .oraImm imm => some (busOraImm imm)
  | .aslAcc => some busAslAcc
  | .ancImm0B imm => some (busAncImm0B imm)
  | .nopAbs0C _ _ => none
  | .oraAbs lo hi => some (busOraAbs lo hi)
  | .aslAbs lo hi => some (busAslAbs lo hi)
  | .sloAbs lo hi => some (busSloAbs lo hi)
  | .bplRel off => some (busBplRel off)
  | .oraIzy zp => some (busOraIzy zp)
  | .jam12 => none
  | .sloIzy zp => some (busSloIzy zp)
  | .nopZpx14 _ => none
  | .oraZpx zp => some (busOraZpx zp)
  | .aslZpx zp => some (busAslZpx zp)
  | .sloZpx zp => some (busSloZpx zp)
  | .clc => some busClc
  | .oraAby lo hi => some (busOraAby lo hi)
  | .nop1A => none
  | .sloAby lo hi => some (busSloAby lo hi)
  | .nopAbx1C _ _ => none
  | .oraAbx lo hi => some (busOraAbx lo hi)
  | .aslAbx lo hi => some (busAslAbx lo hi)
  | .sloAbx lo hi => some (busSloAbx lo hi)
  | .jsrAbs lo _ => some (busJsrAbs lo)
  | .andIzx zp => some (busAndIzx zp)
  | .jam22 => none
  | .rlaIzx zp => some (busRlaIzx zp)
  | .bitZp zp => some (busBitZp zp)
  | .andZp zp => some (busAndZp zp)
  | .rolZp zp => some (busRolZp zp)
  | .rlaZp zp => some (busRlaZp zp)
  | .plp => some busPlp
  | .andImm imm => some (busAndImm imm)
  | .rolAcc => some busRolAcc
  | .ancImm2B imm => some (busAncImm2B imm)
  | .bitAbs lo hi => some (busBitAbs lo hi)
  | .andAbs lo hi => some (busAndAbs lo hi)
  | .rolAbs lo hi => some (busRolAbs lo hi)
  | .rlaAbs lo hi => some (busRlaAbs lo hi)
  | .bmiRel off => some (busBmiRel off)
  | .andIzy zp => some (busAndIzy zp)
  | .jam32 => none
  | .rlaIzy zp => some (busRlaIzy zp)
  | .nopZpx34 _ => none
  | .andZpx zp => some (busAndZpx zp)
  | .rolZpx zp => some (busRolZpx zp)
  | .rlaZpx zp => some (busRlaZpx zp)
  | .sec => some busSec
  | .andAby lo hi => some (busAndAby lo hi)
  | .nop3A => none
  | .rlaAby lo hi => some (busRlaAby lo hi)
  | .nopAbx3C _ _ => none
  | .andAbx lo hi => some (busAndAbx lo hi)
  | .rolAbx lo hi => some (busRolAbx lo hi)
  | .rlaAbx lo hi => some (busRlaAbx lo hi)
  | .rti => some busRti
  | .eorIzx zp => some (busEorIzx zp)
  | .jam42 => none
  | .sreIzx zp => some (busSreIzx zp)
  | .nopZp44 _ => none
  | .eorZp zp => some (busEorZp zp)
  | .lsrZp zp => some (busLsrZp zp)
  | .sreZp zp => some (busSreZp zp)
  | .pha => some busPha
  | .eorImm imm => some (busEorImm imm)
  | .lsrAcc => some busLsrAcc
  | .alrImm imm => some (busAlrImm imm)
  | .jmpAbs lo _ => some (busJmpAbs lo)
  | .eorAbs lo hi => some (busEorAbs lo hi)
  | .lsrAbs lo hi => some (busLsrAbs lo hi)
  | .sreAbs lo hi => some (busSreAbs lo hi)
  | .bvcRel off => some (busBvcRel off)
  | .eorIzy zp => some (busEorIzy zp)
  | .jam52 => none
  | .sreIzy zp => some (busSreIzy zp)
  | .nopZpx54 _ => none
  | .eorZpx zp => some (busEorZpx zp)
  | .lsrZpx zp => some (busLsrZpx zp)
  | .sreZpx zp => some (busSreZpx zp)
  | .cli => some busCli
  | .eorAby lo hi => some (busEorAby lo hi)
  | .nop5A => none
  | .sreAby lo hi => some (busSreAby lo hi)
  | .nopAbx5C _ _ => none
  | .eorAbx lo hi => some (busEorAbx lo hi)
  | .lsrAbx lo hi => some (busLsrAbx lo hi)
  | .sreAbx lo hi => some (busSreAbx lo hi)
  | .rts => some busRts
  | .adcIzx zp => some (busAdcIzx zp)
  | .jam62 => none
  | .rraIzx zp => some (busRraIzx zp)
  | .nopZp64 _ => none
  | .adcZp zp => some (busAdcZp zp)
  | .rorZp zp => some (busRorZp zp)
  | .rraZp zp => some (busRraZp zp)
  | .pla => some busPla
  | .adcImm imm => some (busAdcImm imm)
  | .rorAcc => some busRorAcc
  | .arrImm imm => some (busArrImm imm)
  | .jmpInd lo hi => some (busJmpInd lo hi)
  | .adcAbs lo hi => some (busAdcAbs lo hi)
  | .rorAbs lo hi => some (busRorAbs lo hi)
  | .rraAbs lo hi => some (busRraAbs lo hi)
  | .bvsRel off => some (busBvsRel off)
  | .adcIzy zp => some (busAdcIzy zp)
  | .jam72 => none
  | .rraIzy zp => some (busRraIzy zp)
  | .nopZpx74 _ => none
  | .adcZpx zp => some (busAdcZpx zp)
  | .rorZpx zp => some (busRorZpx zp)
  | .rraZpx zp => some (busRraZpx zp)
  | .sei => some busSei
  | .adcAby lo hi => some (busAdcAby lo hi)
  | .nop7A => none
  | .rraAby lo hi => some (busRraAby lo hi)
  | .nopAbx7C _ _ => none
  | .adcAbx lo hi => some (busAdcAbx lo hi)
  | .rorAbx lo hi => some (busRorAbx lo hi)
  | .rraAbx lo hi => some (busRraAbx lo hi)
  | .nopImm80 _ => none
  | .staIzx zp => some (busStaIzx zp)
  | .nopImm82 _ => none
  | .saxIzx zp => some (busSaxIzx zp)
  | .styZp zp => some (busStyZp zp)
  | .staZp zp => some (busStaZp zp)
  | .stxZp zp => some (busStxZp zp)
  | .saxZp zp => some (busSaxZp zp)
  | .dey => some busDey
  | .nopImm89 _ => none
  | .txa => some busTxa
  | .aneImm _ => none
  | .styAbs lo hi => some (busStyAbs lo hi)
  | .staAbs lo hi => some (busStaAbs lo hi)
  | .stxAbs lo hi => some (busStxAbs lo hi)
  | .saxAbs lo hi => some (busSaxAbs lo hi)
  | .bccRel off => some (busBccRel off)
  | .staIzy zp => some (busStaIzy zp)
  | .jam92 => none
  | .shaIzy _ => none
  | .styZpx zp => some (busStyZpx zp)
  | .staZpx zp => some (busStaZpx zp)
  | .stxZpy zp => some (busStxZpy zp)
  | .saxZpy zp => some (busSaxZpy zp)
  | .tya => some busTya
  | .staAby lo hi => some (busStaAby lo hi)
  | .txs => some busTxs
  | .tasAby _ _ => none
  | .shyAbx _ _ => none
  | .staAbx lo hi => some (busStaAbx lo hi)
  | .shxAby _ _ => none
  | .shaAby _ _ => none
  | .ldyImm imm => some (busLdyImm imm)
  | .ldaIzx zp => some (busLdaIzx zp)
  | .ldxImm imm => some (busLdxImm imm)
  | .laxIzx zp => some (busLaxIzx zp)
  | .ldyZp zp => some (busLdyZp zp)
  | .ldaZp zp => some (busLdaZp zp)
  | .ldxZp zp => some (busLdxZp zp)
  | .laxZp zp => some (busLaxZp zp)
  | .tay => some busTay
  | .ldaImm imm => some (busLdaImm imm)
  | .tax => some busTax
  | .lxaImm _ => none
  | .ldyAbs lo hi => some (busLdyAbs lo hi)
  | .ldaAbs lo hi => some (busLdaAbs lo hi)
  | .ldxAbs lo hi => some (busLdxAbs lo hi)
  | .laxAbs lo hi => some (busLaxAbs lo hi)
  | .bcsRel off => some (busBcsRel off)
  | .ldaIzy zp => some (busLdaIzy zp)
  | .jamB2 => none
  | .laxIzy zp => some (busLaxIzy zp)
  | .ldyZpx zp => some (busLdyZpx zp)
  | .ldaZpx zp => some (busLdaZpx zp)
  | .ldxZpy zp => some (busLdxZpy zp)
  | .laxZpy zp => some (busLaxZpy zp)
  | .clv => some busClv
  | .ldaAby lo hi => some (busLdaAby lo hi)
  | .tsx => some busTsx
  | .lasAby _ _ => none
  | .ldyAbx lo hi => some (busLdyAbx lo hi)
  | .ldaAbx lo hi => some (busLdaAbx lo hi)
  | .ldxAby lo hi => some (busLdxAby lo hi)
  | .laxAby lo hi => some (busLaxAby lo hi)
  | .cpyImm imm => some (busCpyImm imm)
  | .cmpIzx zp => some (busCmpIzx zp)
  | .nopImmC2 _ => none
  | .dcpIzx zp => some (busDcpIzx zp)
  | .cpyZp zp => some (busCpyZp zp)
  | .cmpZp zp => some (busCmpZp zp)
  | .decZp zp => some (busDecZp zp)
  | .dcpZp zp => some (busDcpZp zp)
  | .iny => some busIny
  | .cmpImm imm => some (busCmpImm imm)
  | .dex => some busDex
  | .sbxImm imm => some (busSbxImm imm)
  | .cpyAbs lo hi => some (busCpyAbs lo hi)
  | .cmpAbs lo hi => some (busCmpAbs lo hi)
  | .decAbs lo hi => some (busDecAbs lo hi)
  | .dcpAbs lo hi => some (busDcpAbs lo hi)
  | .bneRel off => some (busBneRel off)
  | .cmpIzy zp => some (busCmpIzy zp)
  | .jamD2 => none
  | .dcpIzy zp => some (busDcpIzy zp)
  | .nopZpxD4 _ => none
  | .cmpZpx zp => some (busCmpZpx zp)
  | .decZpx zp => some (busDecZpx zp)
  | .dcpZpx zp => some (busDcpZpx zp)
  | .cld => some busCld
  | .cmpAby lo hi => some (busCmpAby lo hi)
  | .nopDA => none
  | .dcpAby lo hi => some (busDcpAby lo hi)
  | .nopAbxDC _ _ => none
  | .cmpAbx lo hi => some (busCmpAbx lo hi)
  | .decAbx lo hi => some (busDecAbx lo hi)
  | .dcpAbx lo hi => some (busDcpAbx lo hi)
  | .cpxImm imm => some (busCpxImm imm)
  | .sbcIzx zp => some (busSbcIzx zp)
  | .nopImmE2 _ => none
  | .iscIzx zp => some (busIscIzx zp)
  | .cpxZp zp => some (busCpxZp zp)
  | .sbcZp zp => some (busSbcZp zp)
  | .incZp zp => some (busIncZp zp)
  | .iscZp zp => some (busIscZp zp)
  | .inx => some busInx
  | .sbcImm imm => some (busSbcImm imm)
  | .nop => some busNop
  | .usbcImm _ => none
  | .cpxAbs lo hi => some (busCpxAbs lo hi)
  | .sbcAbs lo hi => some (busSbcAbs lo hi)
  | .incAbs lo hi => some (busIncAbs lo hi)
  | .iscAbs lo hi => some (busIscAbs lo hi)
  | .beqRel off => some (busBeqRel off)
  | .sbcIzy zp => some (busSbcIzy zp)
  | .jamF2 => none
  | .iscIzy zp => some (busIscIzy zp)
  | .nopZpxF4 _ => none
  | .sbcZpx zp => some (busSbcZpx zp)
  | .incZpx zp => some (busIncZpx zp)
  | .iscZpx zp => some (busIscZpx zp)
  | .sed => some busSed
  | .sbcAby lo hi => some (busSbcAby lo hi)
  | .nopFA => none
  | .iscAby lo hi => some (busIscAby lo hi)
  | .nopAbxFC _ _ => none
  | .sbcAbx lo hi => some (busSbcAbx lo hi)
  | .incAbx lo hi => some (busIncAbx lo hi)
  | .iscAbx lo hi => some (busIscAbx lo hi)

end Sys2Proof.Machine
end

