-- ==== Sys2Proof/Machine/Sequencer.lean ====
section
/-! DEFINITION. What happens at an instruction boundary (60_exceptions.md R552), the step interface (64_clock_bus.md
R787) with the resumption of a half-run instruction (R788), and the harness that places an instruction where the next
fetch finds it (70_reset_and_hazards.md R825). -/

namespace Sys2Proof.Machine

/-- The parameters fit their sizes (R11): otherwise ConfigError, and the machine is not built (R811). -/
def paramsOk (p : Params) : Bool :=
  Memory.wf 0x2000 p.basicRom && Memory.wf 0x2000 p.kernalRom && Memory.wf 0x1000 p.charRom
    && Memory.wf 0x2000 p.cart.roml && Memory.wf 0x2000 p.cart.romh

/-- The machine was never built: a ROM image of a bad size was installed before cycle 0 had run (R811). -/
def notBuilt (s : State) : Bool := s.status.halted || (decide (s.cycle = 0) && !paramsOk s.params)

/-! ### What the CPU is in the middle of -/

/-- The state between two instructions. -/
def atBoundary (s : State) : Bool := decide (s.latches.micro.seq = .boundary)

/-- An instruction after its operand fetch, as what it ends with: nothing, or the opcode it refuses (R285). -/
def instrBody (i : Instr) : Bus (Option Byte) :=
  match busOf i with
  | some m => m.bind fun _ => .done none
  | none => .done (some i.opcode)

/-- All the bus cycles of an instruction or a sequence, and what it ends with. -/
def Seq.body (q : Seq) : Bus (Option Byte) :=
  match q with
  | .boundary => .done none
  | .instruction => fetchInstr.bind instrBody
  | .nmi => nmiSequence.bind fun _ => .done none
  | .irq => irqSequence.bind fun _ => .done none
  | .reset => resetSequence.bind fun _ => .done none

/-- What is left of what the CPU is in the middle of, with the registers it stands at (R47, R782). -/
def rest (s : State) : Bus (Option Byte) × Regs :=
  s.latches.micro.seq.body.advance s.latches.micro.start s.latches.micro.moved

/-- The end of an instruction or a sequence: the boundary, or a refused opcode (R285). -/
def ending (o : Option Byte) (s : State) : Host.Outcome State Fault Refusal :=
  match o with
  | none => .next (finish s)
  | some op => .refused (.refusedOpcode op)

/-- The recognition order at an instruction boundary (R552): reset, NMI, IRQ, the next instruction. -/
def recognise (s : State) : State :=
  if s.latches.resetPending then enter .reset (resetEntry s)
  else if s.latches.takeNmi then enter .nmi (nmiEntry s)
  else if s.latches.takeIrq then enter .irq s
  else enter .instruction s

/-! ### `step_cycle()` -/

/-- After a bus cycle: the end, or the place before the next bus cycle.  An immediate operand takes effect here. -/
def settle (s : State) : Host.Outcome State Fault Refusal :=
  let t := { s with regs := (rest s).2 }
  match (rest s).1 with
  | .done o => ending o t
  | .look _ => .next t
  | .set _ _ => .next t
  | .cycle _ _ _ => .next t

/-- One master cycle with the CPU's next bus operation in it (R781, R782). -/
def cycleOn (s : State) : Host.Outcome State Fault Refusal :=
  match (rest s).1 with
  | .cycle op upd _ =>
    let o := masterCycle false op upd s
    if o.reset || !o.done then .next o.state else settle o.state
  | .done _ => settle s
  | .look _ => settle s
  | .set _ _ => settle s

/-- `step_cycle()` (R781, R787): one master cycle, from a boundary or from the middle of an instruction.  The run flag
is sampled at the boundary (R809); a machine that was not built halts (R811).  Where CPU-RESET falls in the very cycle
that fetches a refused opcode, the reset wins (log 21). -/
def stepCycle (s : State) : Host.Outcome State Fault Refusal :=
  if notBuilt s then .fault .configError
  else if !atBoundary s then cycleOn s
  else if s.status.run then cycleOn (recognise s)
  else .next s

/-! ### `step_instruction()` -/

/-- One instruction (R552 step 4): fetch, the meaning of what was fetched, the end of the instruction.  A fetch that
CPU-RESET cuts short ends in the reset state (R572), also where the opcode fetched is a refused one: R285 raises
Refused in that cycle and R570 abandons the instruction in it, and the model lets the reset win (DESIGN CHOICE,
log 21). -/
def runInstruction (s : State) : Host.Outcome State Fault Refusal :=
  match fetchInstr.live s with
  | .ok i t => finishOutcome (exec i t)
  | .error _ t => .next t

/-- The recognition order at an instruction boundary (R552): reset, NMI, IRQ, the next instruction. -/
def runBoundary (s : State) : Host.Outcome State Fault Refusal :=
  if s.latches.resetPending then finishOutcome (run resetSequence (enter .reset (resetEntry s)))
  else if s.latches.takeNmi then finishOutcome (run nmiSequence (enter .nmi (nmiEntry s)))
  else if s.latches.takeIrq then finishOutcome (run irqSequence (enter .irq s))
  else runInstruction (enter .instruction s)

/-- The rest of a half-run instruction or sequence (R788). -/
def resume (s : State) : Host.Outcome State Fault Refusal :=
  match (rest s).1.live s with
  | .ok o t => ending o t
  | .error _ t => .next t

/-- `step_instruction()` (R787): the rest of the instruction the machine is in, or the next one.  The run flag is
sampled at the boundary (R809); a machine that was not built halts (R811). -/
def stepInstruction (s : State) : Host.Outcome State Fault Refusal :=
  if notBuilt s then .fault .configError
  else if !atBoundary s then resume s
  else if s.status.run then runBoundary s
  else .next s

/-- `step_instruction()` as R787 words it, in at most `n` master cycles: master cycles up to the end of the first one
that ends at a boundary.  `stepInstruction` is this with no bound (`cyclesToBoundary_eq_step`). -/
def cyclesToBoundary : Nat → State → Host.Outcome State Fault Refusal
  | 0, s => .next s
  | n + 1, s =>
    match stepCycle s with
    | .next t => if atBoundary t then .next t else cyclesToBoundary n t
    | .fault r => .fault r
    | .refused r => .refused r

/-! ### `step_frame()` -/

/-- At most `n` master cycles, up to the end of the first one in which a frame is handed over (R727, R787). -/
def cyclesToFrame : Nat → State → Host.Outcome State Fault Refusal
  | 0, s => .next s
  | n + 1, s =>
    match stepCycle s with
    | .next t => if s.video.frames < t.video.frames then .next t else cyclesToFrame n t
    | .fault r => .fault r
    | .refused r => .refused r

/-- More master cycles than there are before the next vsync: a frame has `cyclesPerLine * linesPerFrame` of them, and
each fall of CPU-RESET, of which the schedule holds at most one an entry, starts the frame anew. -/
def frameFuel (s : State) : Nat :=
  (s.inputs.schedule.length + 2) * (cyclesPerLine s.params.model * linesPerFrame s.params.model)

/-- `step_frame()` (R787): it ends with the master cycle of the vsync, wherever that falls in an instruction.  With
the run flag clear no cycle runs at a boundary (R809), and the frame is not completed. -/
def stepFrame (s : State) : Host.Outcome State Fault Refusal := cyclesToFrame (frameFuel s) s

/-! ### The harness -/

/-- An address whose bytes the CPU fetches from RAM. -/
def ramAt (s : State) (a : Word) : Bool := decide (1 < a.toNat) && decide (bankAt s a = .ram)

/-- Where a placed instruction goes: PC if its three bytes are RAM there, else $0400, which is RAM in every mode. -/
def placeAddr (s : State) : Word :=
  if ramAt s s.regs.pc && ramAt s (s.regs.pc + 1) && ramAt s (s.regs.pc + 2) then s.regs.pc else 0x0400

/-- The instruction whose bits are `w` (bit 0 of `w` is bit 0 of the opcode) stands at `placeAddr` as the next thing to
run: the BIN load and the setting of PC of R825, at a boundary, with no sequence pending and the run flag set. -/
def placeWord (s : State) (nbits w : Nat) : State :=
  let a := placeAddr s
  let v := w % 2 ^ nbits
  let r0 := Memory.write s.ram a.toNat (BitVec.ofNat 8 v)
  let r1 := Memory.write r0 (a + 1).toNat (BitVec.ofNat 8 (v / 0x100))
  let r2 := Memory.write r1 (a + 2).toNat (BitVec.ofNat 8 (v / 0x10000))
  { s with
    ram := r2, regs := { s.regs with pc := a }
    latches :=
      { s.latches with resetPending := false, takeNmi := false, takeIrq := false, micro := Micro.boundary }
    status := { s.status with run := true } }

end Sys2Proof.Machine
end

