-- ==== Sys2Proof/Machine/Step.lean ====
section
/-! DEFINITION. One step of the machine, `step_instruction()` of 64_clock_bus.md R787. -/

namespace Sys2Proof.Machine

/-- One instruction, interrupt sequence or reset sequence (R787). -/
def step (s : State) : Host.Outcome State Fault Refusal := stepInstruction s

/-- `s` with an instruction placed where the next step fetches and runs it (R825; log 12). -/
def State.withFetchWord (s : State) (nbits w : Nat) : State := placeWord s nbits w

end Sys2Proof.Machine
end

