-- ==== Sys2Proof/Machine/Loader.lean ====
section
/-! DEFINITION. The host interface (64_clock_bus.md R800..R811, 70_reset_and_hazards.md R825): image loading, cartridge
mounting, tape, status flags, the input queue and the harness operations.  All of it happens between steps. -/

namespace Sys2Proof.Machine

/-! ### Fields of an image -/

/-- Byte `i` of an image. -/
def byteAt (img : List Byte) (i : Nat) : Byte := img.getD i 0

/-- A 2-byte big-endian field. -/
def be16 (img : List Byte) (i : Nat) : Nat := 256 * (byteAt img i).toNat + (byteAt img (i + 1)).toNat

/-- A 4-byte big-endian field. -/
def be32 (img : List Byte) (i : Nat) : Nat := 65536 * be16 img i + be16 img (i + 2)

/-- A 4-byte little-endian field. -/
def le32 (img : List Byte) (i : Nat) : Nat :=
  (byteAt img i).toNat + 256 * (byteAt img (i + 1)).toNat + 65536 * (byteAt img (i + 2)).toNat
    + 16777216 * (byteAt img (i + 3)).toNat

/-- The image starts with these bytes at offset `i`. -/
def hasMagic (img : List Byte) (i : Nat) (magic : List Byte) : Bool :=
  decide ((img.drop i).take magic.length = magic)

/-- An error is a value returned to the frontend (R811); the rest of the state is unchanged. -/
def failWith (e : HostError) (s : State) : State := { s with status := { s.status with lastError := some e } }

/-! ### RAM and ROM images (R806) -/

/-- Bytes copied into RAM from `off`, or ImageError if they run past $FFFF. -/
def loadRam (off : Nat) (data : List Byte) (s : State) : State :=
  if off + data.length ≤ 0x10000 then { s with ram := Memory.load s.ram off data } else failWith .imageError s

/-- PRG (R806). -/
def loadPrg (img : List Byte) (s : State) : State :=
  match img with
  | lo :: hi :: data => loadRam (word hi lo).toNat data s
  | _ => failWith .imageError s

/-- The ROM a BIN image can be installed in. -/
inductive RomTarget where
  | basic
  | kernal
  | char
deriving DecidableEq, Repr

/-- The size of a ROM (R11). -/
def RomTarget.size : RomTarget → Nat
  | .basic => 0x2000
  | .kernal => 0x2000
  | .char => 0x1000

/-- A ConfigError (R811): before cycle 0 has run, the machine is not built, and halts; afterwards it is an error value
like the others (DESIGN CHOICE, log 16). -/
def failConfig (s : State) : State :=
  { s with
    status := { s.status with
      lastError := some .configError, halted := s.status.halted || decide (s.cycle = 0) } }

/-- BIN into a ROM (R806): ConfigError unless the size is right. -/
def loadRom (t : RomTarget) (img : List Byte) (s : State) : State :=
  if img.length = t.size then
    let m := Memory.load [] 0 img
    match t with
    | .basic => { s with params := { s.params with basicRom := m } }
    | .kernal => { s with params := { s.params with kernalRom := m } }
    | .char => { s with params := { s.params with charRom := m } }
  else failConfig s

/-- "C64File" and $00. -/
def p00Magic : List Byte := [0x43, 0x36, 0x34, 0x46, 0x69, 0x6C, 0x65, 0x00]

/-- P00 (R806). -/
def loadP00 (img : List Byte) (s : State) : State :=
  if hasMagic img 0 p00Magic && decide (28 ≤ img.length) then loadPrg (img.drop 26) s else failWith .imageError s

/-- T64 (R806): ImageError "unsupported". -/
def loadT64 (s : State) : State := failWith .imageError s

/-! ### Cartridges (R807) -/

/-- "C64 CARTRIDGE   ". -/
def crtMagic : List Byte :=
  [0x43, 0x36, 0x34, 0x20, 0x43, 0x41, 0x52, 0x54, 0x52, 0x49, 0x44, 0x47, 0x45, 0x20, 0x20, 0x20]

/-- "CHIP". -/
def chipMagic : List Byte := [0x43, 0x48, 0x49, 0x50]

/-- One CHIP packet. -/
structure Chip where
  bank : Nat
  load : Nat
  size : Nat
  data : List Byte
deriving DecidableEq, Repr

/-- The CHIP packets of an image from offset `i`; `none` is ImageError.  Every packet is at least $10 bytes long, so the
image's length is fuel enough.  An offset at or past the end gives no packet: an image whose header length H lies past
its end, or that holds no CHIP packet, mounts a cartridge whose ROML and ROMH read $00 (DESIGN CHOICE, log 20). -/
def crtChips (img : List Byte) : Nat → Nat → Option (List Chip)
  | 0, _ => some []
  | fuel + 1, i =>
    if img.length ≤ i then some []
    else if hasMagic img i chipMagic && decide (i + 0x10 ≤ img.length) then
      let len := be32 img (i + 4)
      let size := be16 img (i + 14)
      if 0x10 + size ≤ len ∧ i + len ≤ img.length then
        match crtChips img fuel (i + len) with
        | some rest => some (⟨be16 img (i + 10), be16 img (i + 12), size, (img.drop (i + 0x10)).take size⟩ :: rest)
        | none => none
      else none
    else none

/-- Place one chip in a cartridge; `none` is MountError. -/
def placeChip (c : Cart) (h : Chip) : Option Cart :=
  if h.bank ≠ 0 then none
  else if h.load = 0x8000 ∧ h.size = 0x2000 then some { c with roml := Memory.load [] 0 h.data }
  else if (h.load = 0xA000 ∨ h.load = 0xE000) ∧ h.size = 0x2000 then some { c with romh := Memory.load [] 0 h.data }
  else if h.load = 0x8000 ∧ h.size = 0x4000 then
    some { c with roml := Memory.load [] 0 (h.data.take 0x2000), romh := Memory.load [] 0 (h.data.drop 0x2000) }
  else none

/-- Place every chip. -/
def placeChips : Cart → List Chip → Option Cart
  | c, [] => some c
  | c, h :: rest =>
    match placeChip c h with
    | some d => placeChips d rest
    | none => none

/-- The cartridge type of the (EXROM, GAME) bytes; `none` is MountError.  R807 lists the four pairs of 0 and 1 only; any
other byte is a MountError as well (DESIGN CHOICE, log 20). -/
def cartKindOf (exrom game : Byte) : Option CartKind :=
  if exrom = 0 ∧ game = 1 then some .k8
  else if exrom = 0 ∧ game = 0 then some .k16
  else if exrom = 1 ∧ game = 0 then some .ultimax
  else none

/-- What a CRT image gives: a cartridge, or an error. -/
def parseCrt (img : List Byte) : Except HostError Cart :=
  if hasMagic img 0 crtMagic && decide (0x40 ≤ img.length) then
    match crtChips img img.length (be32 img 0x10) with
    | none => .error .imageError
    | some chips =>
      if be16 img 0x16 ≠ 0 then .error .mountError
      else
        match cartKindOf (byteAt img 0x18) (byteAt img 0x19) with
        | none => .error .mountError
        | some k =>
          match placeChips ⟨k, [], []⟩ chips with
          | some c => .ok c
          | none => .error .mountError
  else .error .imageError

/-- Mounting (R807): the cartridge sets GAME and EXROM, and a reset follows.  A mount that fails changes nothing, so a
cartridge that was mounted before stays (R811: "not mounted"; R807 says of a machine without one that it runs on with
no cartridge; DESIGN CHOICE, log 20). -/
def mountCrt (img : List Byte) (s : State) : State :=
  match parseCrt img with
  | .ok c => resetAll { s with params := { s.params with cart := c } }
  | .error e => failWith e s

/-! ### Tape (R808) -/

/-- "C64-TAPE-RAW". -/
def tapMagic : List Byte := [0x43, 0x36, 0x34, 0x2D, 0x54, 0x41, 0x50, 0x45, 0x2D, 0x52, 0x41, 0x57]

/-- The pulse lengths of TAP data; `none` is ImageError.  A pulse of no cycles never shows and is dropped. -/
def tapPulses (version : Nat) : List Byte → Option (List Nat)
  | [] => some []
  | b :: rest =>
    if b ≠ 0 then
      match tapPulses version rest with
      | some ps => some (8 * b.toNat :: ps)
      | none => none
    else if version = 0 then
      match tapPulses version rest with
      | some ps => some (8 * 256 :: ps)
      | none => none
    else
      match rest with
      | c0 :: c1 :: c2 :: rest2 =>
        let n := c0.toNat + 256 * c1.toNat + 65536 * c2.toNat
        match tapPulses version rest2 with
        | some ps => some (if n = 0 then ps else n :: ps)
        | none => none
      | _ => none

/-- Insert a TAP image (R808).  The read line is high until the first pulse; the spec says nothing of its level there
(DESIGN CHOICE, log 9). -/
def loadTap (img : List Byte) (s : State) : State :=
  let version := (byteAt img 0x0C).toNat
  if hasMagic img 0 tapMagic && decide (0x14 ≤ img.length) && decide (version < 2)
      && decide (le32 img 0x10 + 0x14 = img.length) then
    match tapPulses version (img.drop 0x14) with
    | some ps => { s with tape := ⟨ps, 0, true⟩ }
    | none => failWith .imageError s
  else failWith .imageError s

/-! ### Status flags, inputs, harness -/

/-- `status_flags` (R801). -/
structure StatusFlags where
  run : Bool
  /-- The cassette-motor line: false is motor on. -/
  motorLine : Bool
  lastError : Option HostError
deriving DecidableEq, Repr

/-- What the frontend reads as `status_flags` (R801). -/
def statusFlags (s : State) : StatusFlags := ⟨s.status.run, !motorOn s, s.status.lastError⟩

/-- The host clears or sets the run flag (R809). -/
def setRun (b : Bool) (s : State) : State := { s with status := { s.status with run := b } }

/-- The host queues an input event, to be drained at the next vsync (R803). -/
def queueInput (i : SlowInputs) (s : State) : State :=
  { s with inputs := { s.inputs with queue := s.inputs.queue ++ [(s.cycle, i)] } }

/-- The harness sets CPU registers directly (R825). -/
def harnessSetRegs (r : Regs) (s : State) : State := { s with regs := r }

end Sys2Proof.Machine
end

