-- ==== Sys2Proof/Safety.lean ====
section
/-! DEFINITION. The terms the claims use: what a safe step is, what the passing of time leaves alone, what an
instruction did on the bus, and the invariant of the machine. -/

namespace Sys2Proof.Machine

/-! ### Safe steps -/

/-- A step is safe when it neither faults nor refuses. -/
def Safe (s : State) : Prop := ∃ t, step s = .next t

/-! ### CPU-RESET -/

/-- A level that is at `l` now and then takes these levels never goes from high to low. -/
def neverFalls : Bool → List Bool → Bool
  | _, [] => true
  | l, m :: rest => (!l || m) && neverFalls m rest

/-- CPU-RESET does not fall from here on (R570, R802): nothing cuts an instruction short. -/
def NoReset (s : State) : Prop :=
  neverFalls s.latches.resetPrev (s.inputs.pins.reset :: s.inputs.schedule.map fun e => e.2.reset) = true

/-! ### The bus -/

/-- One transfer on the CPU's bus: what the tick callback is given, without the cycle number (R786). -/
structure Transfer where
  addr : Word
  value : Byte
  isWrite : Bool
deriving DecidableEq, Repr

/-- A read of `v` at `a`. -/
def rd (a : Word) (v : Byte) : Transfer := ⟨a, v, false⟩

/-- A write of `v` at `a`. -/
def wr (a : Word) (v : Byte) : Transfer := ⟨a, v, true⟩

/-- The transfers made so far, newest first. -/
def transfers (s : State) : List Transfer := s.ticks.map fun k => ⟨k.addr, k.value, k.isWrite⟩

/-- The value at `a` changes only by a write, a bank switch or a reset: `a` is neither an I/O register, nor the port's
$0001, nor an open area. -/
def plainAt (s : State) (a : Word) : Bool :=
  decide (a ≠ 1) && decide (bankAt s a ≠ .io) && decide (bankAt s a ≠ .openBus)

/-- A CPU write at `a` lands in RAM (R211). -/
def landsInRam (s : State) (a : Word) : Bool :=
  decide (1 < a.toNat) && decide (bankAt s a ≠ .io) && decide (bankAt s a ≠ .openBus)
    && !((decide (bankAt s a = .roml) || decide (bankAt s a = .romh)) && isUltimax s)

/-! ### Device settings -/

/-- A sprite's registers, everything else blank. -/
def Sprite.settings (s : Sprite) : Sprite :=
  { Sprite.reset with posX := s.posX, posY := s.posY, colour := s.colour }

/-- The VIC registers that only a CPU write changes (R70..R80), everything else blank. -/
def Vic.settings (v : Vic) : Vic :=
  { Vic.reset with
    sprites := v.sprites.mapIdx fun _ s => s.settings
    xMsb := v.xMsb, cr1 := v.cr1, rasterCmp := v.rasterCmp, enable := v.enable, cr2 := v.cr2, expandY := v.expandY
    memPtr := v.memPtr, imr := v.imr, priority := v.priority, multi := v.multi, expandX := v.expandX
    ec := v.ec, b0c := v.b0c, b1c := v.b1c, b2c := v.b2c, b3c := v.b3c, mm0 := v.mm0, mm1 := v.mm1 }

/-- The CIA registers that only a CPU write changes (R60..R65), everything else blank.  START of a control register
is left out, because a one-shot timer clears it (R605). -/
def Cia.settings (c : Cia) : Cia :=
  { Cia.reset with
    pra := c.pra, prb := c.prb, ddra := c.ddra, ddrb := c.ddrb
    ta := { Timer.reset with latch := c.ta.latch }, tb := { Timer.reset with latch := c.tb.latch }
    cra := c.cra &&& 0xFE, crb := c.crb &&& 0xFE, alarm := c.alarm, icrMask := c.icrMask }

/-- A SID voice's registers, everything else blank. -/
def Voice.settings (v : Voice) : Voice :=
  { Voice.reset with freq := v.freq, pw := v.pw, ctrl := v.ctrl, ad := v.ad, sr := v.sr }

/-- The SID registers (R90, R91), everything else blank. -/
def Sid.settings (s : Sid) : Sid :=
  { Sid.reset with
    v1 := s.v1.settings, v2 := s.v2.settings, v3 := s.v3.settings
    fcLo := s.fcLo, fcHi := s.fcHi, resFilt := s.resFilt, modeVol := s.modeVol }

/-- The device registers that only a CPU write changes. -/
structure DeviceSettings where
  vic : Vic
  cia1 : Cia
  cia2 : Cia
  sid : Sid
deriving DecidableEq, Repr

/-- The device registers of a state. -/
def settings (s : State) : DeviceSettings := ⟨s.vic.settings, s.cia1.settings, s.cia2.settings, s.sid.settings⟩

/-! ### What an instruction did -/

/-- `t` comes after `s`: the registers are `r`; the CPU made the transfers `ops`, first one first, and no others; RAM,
colour RAM, the processor port and the device registers are those of `e`; nothing else that only an instruction or the
host changes has changed; and CPU-RESET still does not fall. -/
structure After (s e t : State) (r : Regs) (ops : List Transfer) : Prop where
  regs : t.regs = r
  transfers : transfers t = ops.reverse ++ transfers s
  ram : t.ram = e.ram
  colour : t.colour = e.colour
  port : t.port = e.port
  settings : settings t = settings e
  params : t.params = s.params
  status : t.status = s.status
  resetPending : t.latches.resetPending = s.latches.resetPending
  taken : t.latches.takeNmi = s.latches.takeNmi ∧ t.latches.takeIrq = s.latches.takeIrq
  noReset : NoReset t

/-- The frame of RAM for one stored byte: every address outside it reads as before; the byte itself reads as `v` where
the write lands in RAM. -/
def RamFrame (s t : State) (ea : Word) (v : Byte) : Prop :=
  Memory.wf 0x10000 s.ram = true →
    ∀ x : Nat, Memory.read t.ram x = if landsInRam s ea = true ∧ x = ea.toNat then v else Memory.read s.ram x

/-- The memory side of `s` after these CPU writes, first one first. -/
def stored (s : State) : List (Word × Byte) → State
  | [] => s
  | (a, v) :: rest => stored (writeEffect s a v) rest

/-- The stack address of a stack pointer (R16). -/
def stackAt (s : Byte) : Word := word 0x01 s

/-- The word at a vector, as a read at `v` and `v + 1` sees it. -/
def VectorAt (s : State) (v : Word) (l h : Byte) : Prop :=
  (plainAt s v = true → l = peek s v) ∧ (plainAt s (v + 1) = true → h = peek s (v + 1))

/-- The three bytes an exception pushes, and where. -/
def exceptionFrame (r : Regs) (b : Bool) : List (Word × Byte) :=
  [(stackAt r.s, hiByte r.pc), (stackAt (r.s - 1), loByte r.pc), (stackAt (r.s - 2), pImage b r.p)]

/-! ### The bus cycles of the addressing modes, as the tables of R330..R332 list them after the operand fetch -/

/-- The addressing modes that reach memory (R281), with their operand bytes. -/
inductive Access where
  | zp (z : Byte)
  | zpx (z : Byte)
  | zpy (z : Byte)
  | abs (lo hi : Byte)
  | abx (lo hi : Byte)
  | aby (lo hi : Byte)
  | izx (z : Byte)
  | izy (z : Byte)
deriving DecidableEq, Repr

/-- `h:l` is the pointer held at `p`, `p + 1` of page $00 (R325, R326), where those bytes are plain memory. -/
def PointerAt (s : State) (p l h : Byte) : Prop :=
  (plainAt s (zext16 p) = true → l = peek s (zext16 p)) ∧
    (plainAt s (zext16 (p + 1)) = true → h = peek s (zext16 (p + 1)))

/-- After the transfers `pre`, a byte `m` was read at `ea` and used by `f`; nothing was written. -/
def ReadsAt (f : Byte → Regs → Regs) (s t : State) (pre : List Transfer) (ea : Word) : Prop :=
  ∃ m, After s s t (f m s.regs) (pre ++ [rd ea m]) ∧ (plainAt s ea = true → m = peek s ea)

/-- An indexed read with its extra dummy read on a page crossing (R324, R330, R333). -/
def ReadsIndexed (f : Byte → Regs → Regs) (s t : State) (pre : List Transfer) (base : Word) (i : Byte) : Prop :=
  if hiByte (base + zext16 i) = hiByte base then ReadsAt f s t pre (base + zext16 i)
  else ∃ d, ReadsAt f s t (pre ++ [rd (word (hiByte base) (loByte base + i)) d]) (base + zext16 i)

/-- The read class (R330). -/
def Access.Reads (m : Access) (f : Byte → Regs → Regs) (s t : State) : Prop :=
  match m with
  | .zp z => ReadsAt f s t [] (zext16 z)
  | .zpx z => ∃ d, ReadsAt f s t [rd (zext16 z) d] (zext16 (z + s.regs.x))
  | .zpy z => ∃ d, ReadsAt f s t [rd (zext16 z) d] (zext16 (z + s.regs.y))
  | .abs lo hi => ReadsAt f s t [] (word hi lo)
  | .abx lo hi => ReadsIndexed f s t [] (word hi lo) s.regs.x
  | .aby lo hi => ReadsIndexed f s t [] (word hi lo) s.regs.y
  | .izx z => ∃ d l h, PointerAt s (z + s.regs.x) l h ∧
      ReadsAt f s t [rd (zext16 z) d, rd (zext16 (z + s.regs.x)) l, rd (zext16 (z + s.regs.x + 1)) h] (word h l)
  | .izy z => ∃ l h, PointerAt s z l h ∧
      ReadsIndexed f s t [rd (zext16 z) l, rd (zext16 (z + 1)) h] (word h l) s.regs.y

/-- After the transfers `pre`, the byte `v` was written at `ea`, and no register changed. -/
def WritesAt (v : Byte) (s t : State) (pre : List Transfer) (ea : Word) : Prop :=
  After s (writeEffect s ea v) t s.regs (pre ++ [wr ea v]) ∧ RamFrame s t ea v

/-- An indexed store, whose dummy read is always made (R331). -/
def WritesIndexed (v : Byte) (s t : State) (pre : List Transfer) (base : Word) (i : Byte) : Prop :=
  ∃ d, WritesAt v s t (pre ++ [rd (word (hiByte base) (loByte base + i)) d]) (base + zext16 i)

/-- The write class (R331). -/
def Access.Writes (m : Access) (v : Byte) (s t : State) : Prop :=
  match m with
  | .zp z => WritesAt v s t [] (zext16 z)
  | .zpx z => ∃ d, WritesAt v s t [rd (zext16 z) d] (zext16 (z + s.regs.x))
  | .zpy z => ∃ d, WritesAt v s t [rd (zext16 z) d] (zext16 (z + s.regs.y))
  | .abs lo hi => WritesAt v s t [] (word hi lo)
  | .abx lo hi => WritesIndexed v s t [] (word hi lo) s.regs.x
  | .aby lo hi => WritesIndexed v s t [] (word hi lo) s.regs.y
  | .izx z => ∃ d l h, PointerAt s (z + s.regs.x) l h ∧
      WritesAt v s t [rd (zext16 z) d, rd (zext16 (z + s.regs.x)) l, rd (zext16 (z + s.regs.x + 1)) h] (word h l)
  | .izy z => ∃ l h, PointerAt s z l h ∧
      WritesIndexed v s t [rd (zext16 z) l, rd (zext16 (z + 1)) h] (word h l) s.regs.y

/-- After the transfers `pre`, a byte `m` was read at `ea`, written back unmodified, then the result `res m` written;
the registers afterwards are `f m` of those before (R332). -/
def ModifiesAt (res : Byte → Regs → Byte) (f : Byte → Regs → Regs) (s t : State) (pre : List Transfer) (ea : Word) :
    Prop :=
  ∃ m, After s (writeEffect (writeEffect s ea m) ea (res m s.regs)) t (f m s.regs)
      (pre ++ [rd ea m, wr ea m, wr ea (res m s.regs)]) ∧
    (plainAt s ea = true → m = peek s ea) ∧ RamFrame s t ea (res m s.regs)

/-- An indexed read-modify-write, whose dummy read is always made (R332). -/
def ModifiesIndexed (res : Byte → Regs → Byte) (f : Byte → Regs → Regs) (s t : State) (pre : List Transfer)
    (base : Word) (i : Byte) : Prop :=
  ∃ d, ModifiesAt res f s t (pre ++ [rd (word (hiByte base) (loByte base + i)) d]) (base + zext16 i)

/-- The read-modify-write class (R332). -/
def Access.Modifies (m : Access) (res : Byte → Regs → Byte) (f : Byte → Regs → Regs) (s t : State) : Prop :=
  match m with
  | .zp z => ModifiesAt res f s t [] (zext16 z)
  | .zpx z => ∃ d, ModifiesAt res f s t [rd (zext16 z) d] (zext16 (z + s.regs.x))
  | .zpy z => ∃ d, ModifiesAt res f s t [rd (zext16 z) d] (zext16 (z + s.regs.y))
  | .abs lo hi => ModifiesAt res f s t [] (word hi lo)
  | .abx lo hi => ModifiesIndexed res f s t [] (word hi lo) s.regs.x
  | .aby lo hi => ModifiesIndexed res f s t [] (word hi lo) s.regs.y
  | .izx z => ∃ d l h, PointerAt s (z + s.regs.x) l h ∧
      ModifiesAt res f s t [rd (zext16 z) d, rd (zext16 (z + s.regs.x)) l, rd (zext16 (z + s.regs.x + 1)) h] (word h l)
  | .izy z => ∃ l h, PointerAt s z l h ∧
      ModifiesIndexed res f s t [rd (zext16 z) l, rd (zext16 (z + 1)) h] (word h l) s.regs.y

/-- The outcome is a next state, and `P` holds of it. -/
def Gives (o : Host.Outcome State Fault Refusal) (P : State → Prop) : Prop := ∃ t, o = .next t ∧ P t

/-- What a master cycle in which the CPU is stalled leaves alone (R783). -/
structure Passes (s t : State) : Prop where
  regs : t.regs = s.regs
  ticks : t.ticks = s.ticks
  ram : t.ram = s.ram
  colour : t.colour = s.colour
  port : t.port = s.port
  bus : t.bus = s.bus
  settings : settings t = settings s
  params : t.params = s.params
  status : t.status = s.status
  resetPending : t.latches.resetPending = s.latches.resetPending
  taken : t.latches.takeNmi = s.latches.takeNmi ∧ t.latches.takeIrq = s.latches.takeIrq
  polls : t.latches.poll1 = s.latches.poll1 ∧ t.latches.poll2 = s.latches.poll2
  micro : t.latches.micro = s.latches.micro
  noReset : NoReset t

/-- The opcode byte `op` with the operand bytes `b1` and `b2` after it is the instruction `i` (R284), and `i` completes
from `s`, the state after its operand fetch, in a next state of which `P` holds. -/
def Form (op b1 b2 : Byte) (i : Instr) (s : State) (P : State → Prop) : Prop :=
  decodeParts op b1 b2 = i ∧ Gives (exec i s) P

/-! ### The invariant -/

/-- The geometry and the reserved bits of the VIC. -/
structure Vic.Wf (v : Vic) (p : Params) : Prop where
  x : v.x < cyclesPerLine p.model
  y : v.y < linesPerFrame p.model
  vmLine : v.vmLine.length = 40
  gLine : v.gLine.length = 40
  ba : v.baLowCount ≤ 3
  cr1 : bit v.cr1 7 = false
  cr2 : v.cr2.toNat < 64
  memPtr : bit v.memPtr 0 = false

/-- The reserved bits of a CIA (R66). -/
structure Cia.Wf (c : Cia) : Prop where
  cra : bit c.cra 4 = false
  crb : bit c.crb 4 = false

/-- The invariant that every step keeps. -/
structure Inv (s : State) : Prop where
  /-- RAM and what reset loads it from are in canonical form. -/
  ram : Memory.wf 0x10000 s.ram = true
  ramInit : Memory.wf 0x10000 s.params.ramInit = true
  /-- Colour RAM is in canonical form, and its cells are 4 bits wide. -/
  colour : Memory.wf 0x400 s.colour = true
  nibbles : Memory.nibbles s.colour = true
  /-- The RAM bytes under the processor port are never written (R211). -/
  underPort0 : Memory.read s.ram 0 = Memory.read s.params.ramInit 0
  underPort1 : Memory.read s.ram 1 = Memory.read s.params.ramInit 1
  vic : s.vic.Wf s.params
  cia1 : s.cia1.Wf
  cia2 : s.cia2.Wf
  /-- Each interrupt producer follows its device (R640, R725). -/
  irqCia1 : s.pins.irqCia1 = s.cia1.line
  nmiCia2 : s.pins.nmiCia2 = s.cia2.line
  irqVic : s.pins.irqVic = s.vic.irqOut
  /-- One sample per master cycle (R804), and at most one bus cycle (R782). -/
  audio : s.audio.length = s.cycle
  ticks : s.ticks.length ≤ s.cycle

end Sys2Proof.Machine
end

