-- ==== Sys2Proof/Certificates/Slice0/Obligations.lean ====
section
/-! DEFINITION. The statements about this model, for the provers.  `After`, `Access.Reads`, `Access.Writes` and
`Access.Modifies` (Sys2Proof/Safety.lean) say what an instruction did and what it left alone; an instruction's state
is the one after its operand fetch, which `Obligations.StepRunsTheDecodedInstruction` describes. -/

open Sys2Proof Sys2Proof.Machine

/-- In every state in which CPU-RESET does not fall, each of the eight LDA opcodes, from its operand fetch on,
completes: A takes the operand m, N = m[7], Z = (m = 0), the other registers and flags keep their values, the bus
makes exactly the cycles of the read class (with the extra one on a page crossing), and RAM, colour RAM, the
processor port and the device registers are unchanged. -/
def Obligations.LdaLoads : Prop :=
  let lda : Byte → Regs → Regs := fun m r => { r with a := m, p := { r.p with n := bit m 7, z := decide (m = 0) } }
  ∀ (z h : Byte) (s : State), NoReset s →
    Form 0xA9 z h (.ldaImm z) s (fun t => t = { s with regs := lda z s.regs }) ∧
    Form 0xA5 z h (.ldaZp z) s ((Access.zp z).Reads lda s) ∧
    Form 0xB5 z h (.ldaZpx z) s ((Access.zpx z).Reads lda s) ∧
    Form 0xAD z h (.ldaAbs z h) s ((Access.abs z h).Reads lda s) ∧
    Form 0xBD z h (.ldaAbx z h) s ((Access.abx z h).Reads lda s) ∧
    Form 0xB9 z h (.ldaAby z h) s ((Access.aby z h).Reads lda s) ∧
    Form 0xA1 z h (.ldaIzx z) s ((Access.izx z).Reads lda s) ∧
    Form 0xB1 z h (.ldaIzy z) s ((Access.izy z).Reads lda s)

/-- Each LDX and LDY opcode, from its operand fetch on, completes when CPU-RESET does not fall: X (or Y) takes the
operand m, N = m[7], Z = (m = 0), nothing else in the registers changes, the bus cycles are those of the read
class, and memory and the device registers are unchanged. -/
def Obligations.LdxLdyLoad : Prop :=
  let ldx : Byte → Regs → Regs := fun m r => { r with x := m, p := { r.p with n := bit m 7, z := decide (m = 0) } }
  let ldy : Byte → Regs → Regs := fun m r => { r with y := m, p := { r.p with n := bit m 7, z := decide (m = 0) } }
  ∀ (z h : Byte) (s : State), NoReset s →
    Form 0xA2 z h (.ldxImm z) s (fun t => t = { s with regs := ldx z s.regs }) ∧
    Form 0xA6 z h (.ldxZp z) s ((Access.zp z).Reads ldx s) ∧
    Form 0xB6 z h (.ldxZpy z) s ((Access.zpy z).Reads ldx s) ∧
    Form 0xAE z h (.ldxAbs z h) s ((Access.abs z h).Reads ldx s) ∧
    Form 0xBE z h (.ldxAby z h) s ((Access.aby z h).Reads ldx s) ∧
    Form 0xA0 z h (.ldyImm z) s (fun t => t = { s with regs := ldy z s.regs }) ∧
    Form 0xA4 z h (.ldyZp z) s ((Access.zp z).Reads ldy s) ∧
    Form 0xB4 z h (.ldyZpx z) s ((Access.zpx z).Reads ldy s) ∧
    Form 0xAC z h (.ldyAbs z h) s ((Access.abs z h).Reads ldy s) ∧
    Form 0xBC z h (.ldyAbx z h) s ((Access.abx z h).Reads ldy s)

/-- Each of the six LAX opcodes, from its operand fetch on, completes when CPU-RESET does not fall: A and X both take
the operand m, N = m[7], Z = (m = 0), nothing else in the registers changes, the bus cycles are those of the read
class, and memory and the device registers are unchanged. -/
def Obligations.LaxLoads : Prop :=
  let lax : Byte → Regs → Regs := fun m r =>
    { r with a := m, x := m, p := { r.p with n := bit m 7, z := decide (m = 0) } }
  ∀ (z h : Byte) (s : State), NoReset s →
    Form 0xA7 z h (.laxZp z) s ((Access.zp z).Reads lax s) ∧
    Form 0xB7 z h (.laxZpy z) s ((Access.zpy z).Reads lax s) ∧
    Form 0xAF z h (.laxAbs z h) s ((Access.abs z h).Reads lax s) ∧
    Form 0xBF z h (.laxAby z h) s ((Access.aby z h).Reads lax s) ∧
    Form 0xA3 z h (.laxIzx z) s ((Access.izx z).Reads lax s) ∧
    Form 0xB3 z h (.laxIzy z) s ((Access.izy z).Reads lax s)

/-- Each STA, STX and STY opcode, from its operand fetch on, completes when CPU-RESET does not fall: the register is
written at the effective address as the last bus cycle, with the dummy reads of the write class before it; no
register and no flag changes; the write has the effect the MMU gives a write at that address, and every other RAM
byte reads as before. -/
def Obligations.StoresWriteTheRegister : Prop :=
  ∀ (z h : Byte) (s : State), NoReset s →
    Form 0x85 z h (.staZp z) s ((Access.zp z).Writes s.regs.a s) ∧
    Form 0x95 z h (.staZpx z) s ((Access.zpx z).Writes s.regs.a s) ∧
    Form 0x8D z h (.staAbs z h) s ((Access.abs z h).Writes s.regs.a s) ∧
    Form 0x9D z h (.staAbx z h) s ((Access.abx z h).Writes s.regs.a s) ∧
    Form 0x99 z h (.staAby z h) s ((Access.aby z h).Writes s.regs.a s) ∧
    Form 0x81 z h (.staIzx z) s ((Access.izx z).Writes s.regs.a s) ∧
    Form 0x91 z h (.staIzy z) s ((Access.izy z).Writes s.regs.a s) ∧
    Form 0x86 z h (.stxZp z) s ((Access.zp z).Writes s.regs.x s) ∧
    Form 0x96 z h (.stxZpy z) s ((Access.zpy z).Writes s.regs.x s) ∧
    Form 0x8E z h (.stxAbs z h) s ((Access.abs z h).Writes s.regs.x s) ∧
    Form 0x84 z h (.styZp z) s ((Access.zp z).Writes s.regs.y s) ∧
    Form 0x94 z h (.styZpx z) s ((Access.zpx z).Writes s.regs.y s) ∧
    Form 0x8C z h (.styAbs z h) s ((Access.abs z h).Writes s.regs.y s)

/-- Each of the four SAX opcodes, from its operand fetch on, completes when CPU-RESET does not fall: A & X is written
at the effective address, no register and no flag changes, and every other RAM byte reads as before. -/
def Obligations.SaxStores : Prop :=
  ∀ (z h : Byte) (s : State), NoReset s →
    Form 0x87 z h (.saxZp z) s ((Access.zp z).Writes (s.regs.a &&& s.regs.x) s) ∧
    Form 0x97 z h (.saxZpy z) s ((Access.zpy z).Writes (s.regs.a &&& s.regs.x) s) ∧
    Form 0x8F z h (.saxAbs z h) s ((Access.abs z h).Writes (s.regs.a &&& s.regs.x) s) ∧
    Form 0x83 z h (.saxIzx z) s ((Access.izx z).Writes (s.regs.a &&& s.regs.x) s)

/-- TAX, TAY, TXA, TYA and TSX copy the source register to the destination and set N and Z from it; TXS copies X to S
and changes no flag. Each makes one dummy read of PC and changes nothing else. -/
def Obligations.TransfersCopy : Prop :=
  let nz : Byte → Flags → Flags := fun v p => { p with n := bit v 7, z := decide (v = 0) }
  ∀ (z h : Byte) (s : State), NoReset s →
    Form 0xAA z h .tax s
      (fun t => ∃ d, After s s t { s.regs with x := s.regs.a, p := nz s.regs.a s.regs.p } [rd s.regs.pc d]) ∧
    Form 0xA8 z h .tay s
      (fun t => ∃ d, After s s t { s.regs with y := s.regs.a, p := nz s.regs.a s.regs.p } [rd s.regs.pc d]) ∧
    Form 0x8A z h .txa s
      (fun t => ∃ d, After s s t { s.regs with a := s.regs.x, p := nz s.regs.x s.regs.p } [rd s.regs.pc d]) ∧
    Form 0x98 z h .tya s
      (fun t => ∃ d, After s s t { s.regs with a := s.regs.y, p := nz s.regs.y s.regs.p } [rd s.regs.pc d]) ∧
    Form 0xBA z h .tsx s
      (fun t => ∃ d, After s s t { s.regs with x := s.regs.s, p := nz s.regs.s s.regs.p } [rd s.regs.pc d]) ∧
    Form 0x9A z h .txs s (fun t => ∃ d, After s s t { s.regs with s := s.regs.x } [rd s.regs.pc d])

/-- PHA and PHP make a dummy read of PC, write A (or the status byte with B set) at $0100 + S, and leave S one lower
(mod 256); no other register and no flag changes, and every other byte of RAM reads as before. -/
def Obligations.PhaPhpPush : Prop :=
  ∀ (z h : Byte) (s : State), NoReset s →
    Form 0x48 z h .pha s
      (fun t => ∃ d, After s (stored s [(stackAt s.regs.s, s.regs.a)]) t { s.regs with s := s.regs.s - 1 }
      [rd s.regs.pc d, wr (stackAt s.regs.s) s.regs.a] ∧ RamFrame s t (stackAt s.regs.s) s.regs.a) ∧
    Form 0x08 z h .php s
      (fun t => ∃ d, After s (stored s [(stackAt s.regs.s, pImage true s.regs.p)]) t { s.regs with s := s.regs.s - 1 }
      [rd s.regs.pc d, wr (stackAt s.regs.s) (pImage true s.regs.p)] ∧
        RamFrame s t (stackAt s.regs.s) (pImage true s.regs.p))

/-- PLA and PLP make a dummy read of PC, a dummy read at $0100 + S, count S up and read the byte m at $0100 + S. PLA
puts m in A and sets N and Z; PLP loads N, V, D, I, Z, C from bits 7, 6, 3, 2, 1, 0 of m. Nothing else changes. -/
def Obligations.PlaPlpPull : Prop :=
  let at1 : State → Word := fun s => stackAt (s.regs.s + 1)
  ∀ (z h : Byte) (s : State), NoReset s →
    Form 0x68 z h .pla s (fun t => ∃ d e, After s s t
      { s.regs with
        s := s.regs.s + 1, a := peek s (at1 s)
        p := { s.regs.p with n := bit (peek s (at1 s)) 7, z := decide (peek s (at1 s) = 0) } }
      [rd s.regs.pc d, rd (stackAt s.regs.s) e, rd (at1 s) (peek s (at1 s))]) ∧
    Form 0x28 z h .plp s (fun t => ∃ d e, After s s t
      { s.regs with
        s := s.regs.s + 1
        p :=
          { n := bit (peek s (at1 s)) 7, v := bit (peek s (at1 s)) 6, d := bit (peek s (at1 s)) 3
            i := bit (peek s (at1 s)) 2, z := bit (peek s (at1 s)) 1, c := bit (peek s (at1 s)) 0 } }
      [rd s.regs.pc d, rd (stackAt s.regs.s) e, rd (at1 s) (peek s (at1 s))])

/-- Each of the eight ADC opcodes, from its operand fetch on, completes when CPU-RESET does not fall: A, N, V, Z and C
take the result of binary addition (D = 0) or of decimal addition (D = 1) of A, the operand and C; the other
registers and flags keep their values, the bus cycles are those of the read class, and memory and the device
registers are unchanged. -/
def Obligations.AdcAdds : Prop :=
  let add : Byte → Regs → Alu := fun m r => if r.p.d then addDecimal r.a m r.p.c else addBinary r.a m r.p.c
  let adc : Byte → Regs → Regs := fun m r =>
    { r with
      a := (add m r).res
      p := { r.p with n := (add m r).n, v := (add m r).v, z := (add m r).z, c := (add m r).c } }
  ∀ (z h : Byte) (s : State), NoReset s →
    Form 0x69 z h (.adcImm z) s (fun t => t = { s with regs := adc z s.regs }) ∧
    Form 0x65 z h (.adcZp z) s ((Access.zp z).Reads adc s) ∧
    Form 0x75 z h (.adcZpx z) s ((Access.zpx z).Reads adc s) ∧
    Form 0x6D z h (.adcAbs z h) s ((Access.abs z h).Reads adc s) ∧
    Form 0x7D z h (.adcAbx z h) s ((Access.abx z h).Reads adc s) ∧
    Form 0x79 z h (.adcAby z h) s ((Access.aby z h).Reads adc s) ∧
    Form 0x61 z h (.adcIzx z) s ((Access.izx z).Reads adc s) ∧
    Form 0x71 z h (.adcIzy z) s ((Access.izy z).Reads adc s)

/-- Each of the eight SBC opcodes, from its operand fetch on, completes when CPU-RESET does not fall: A, N, V, Z and C
take the result of binary subtraction (D = 0) or of decimal subtraction (D = 1) of A, the operand and C; the other
registers and flags keep their values, the bus cycles are those of the read class, and memory and the device
registers are unchanged. -/
def Obligations.SbcSubtracts : Prop :=
  let sub : Byte → Regs → Alu := fun m r => if r.p.d then subDecimal r.a m r.p.c else subBinary r.a m r.p.c
  let sbc : Byte → Regs → Regs := fun m r =>
    { r with
      a := (sub m r).res
      p := { r.p with n := (sub m r).n, v := (sub m r).v, z := (sub m r).z, c := (sub m r).c } }
  ∀ (z h : Byte) (s : State), NoReset s →
    Form 0xE9 z h (.sbcImm z) s (fun t => t = { s with regs := sbc z s.regs }) ∧
    Form 0xE5 z h (.sbcZp z) s ((Access.zp z).Reads sbc s) ∧
    Form 0xF5 z h (.sbcZpx z) s ((Access.zpx z).Reads sbc s) ∧
    Form 0xED z h (.sbcAbs z h) s ((Access.abs z h).Reads sbc s) ∧
    Form 0xFD z h (.sbcAbx z h) s ((Access.abx z h).Reads sbc s) ∧
    Form 0xF9 z h (.sbcAby z h) s ((Access.aby z h).Reads sbc s) ∧
    Form 0xE1 z h (.sbcIzx z) s ((Access.izx z).Reads sbc s) ∧
    Form 0xF1 z h (.sbcIzy z) s ((Access.izy z).Reads sbc s)

/-- Each AND, ORA and EOR opcode, from its operand fetch on, completes when CPU-RESET does not fall: A takes A & m, A
| m or A ^ m, N and Z follow the new A, the other registers and flags keep their values, the bus cycles are those
of the read class, and memory and the device registers are unchanged. -/
def Obligations.LogicCombines : Prop :=
  let setA : Byte → Regs → Regs := fun v r => { r with a := v, p := { r.p with n := bit v 7, z := decide (v = 0) } }
  let and : Byte → Regs → Regs := fun m r => setA (r.a &&& m) r
  let ora : Byte → Regs → Regs := fun m r => setA (r.a ||| m) r
  let eor : Byte → Regs → Regs := fun m r => setA (r.a ^^^ m) r
  ∀ (z h : Byte) (s : State), NoReset s →
    Form 0x29 z h (.andImm z) s (fun t => t = { s with regs := and z s.regs }) ∧
    Form 0x25 z h (.andZp z) s ((Access.zp z).Reads and s) ∧
    Form 0x35 z h (.andZpx z) s ((Access.zpx z).Reads and s) ∧
    Form 0x2D z h (.andAbs z h) s ((Access.abs z h).Reads and s) ∧
    Form 0x3D z h (.andAbx z h) s ((Access.abx z h).Reads and s) ∧
    Form 0x39 z h (.andAby z h) s ((Access.aby z h).Reads and s) ∧
    Form 0x21 z h (.andIzx z) s ((Access.izx z).Reads and s) ∧
    Form 0x31 z h (.andIzy z) s ((Access.izy z).Reads and s) ∧
    Form 0x09 z h (.oraImm z) s (fun t => t = { s with regs := ora z s.regs }) ∧
    Form 0x05 z h (.oraZp z) s ((Access.zp z).Reads ora s) ∧
    Form 0x15 z h (.oraZpx z) s ((Access.zpx z).Reads ora s) ∧
    Form 0x0D z h (.oraAbs z h) s ((Access.abs z h).Reads ora s) ∧
    Form 0x1D z h (.oraAbx z h) s ((Access.abx z h).Reads ora s) ∧
    Form 0x19 z h (.oraAby z h) s ((Access.aby z h).Reads ora s) ∧
    Form 0x01 z h (.oraIzx z) s ((Access.izx z).Reads ora s) ∧
    Form 0x11 z h (.oraIzy z) s ((Access.izy z).Reads ora s) ∧
    Form 0x49 z h (.eorImm z) s (fun t => t = { s with regs := eor z s.regs }) ∧
    Form 0x45 z h (.eorZp z) s ((Access.zp z).Reads eor s) ∧
    Form 0x55 z h (.eorZpx z) s ((Access.zpx z).Reads eor s) ∧
    Form 0x4D z h (.eorAbs z h) s ((Access.abs z h).Reads eor s) ∧
    Form 0x5D z h (.eorAbx z h) s ((Access.abx z h).Reads eor s) ∧
    Form 0x59 z h (.eorAby z h) s ((Access.aby z h).Reads eor s) ∧
    Form 0x41 z h (.eorIzx z) s ((Access.izx z).Reads eor s) ∧
    Form 0x51 z h (.eorIzy z) s ((Access.izy z).Reads eor s)

/-- Each CMP, CPX and CPY opcode, from its operand fetch on, completes when CPU-RESET does not fall: C = (register >=
operand), Z = (register = operand), N = bit 7 of the difference mod 256, V unchanged. Each BIT opcode likewise: N
= m[7], V = m[6], Z = ((A & m) = 0), C unchanged. D, I and every register keep their values, the bus cycles are
those of the read class, and memory and the device registers are unchanged. -/
def Obligations.ComparesAndBitSetFlags : Prop :=
  let cmp : Byte → Regs → Regs := fun m r =>
    { r with p := { r.p with n := bit (r.a - m) 7, z := decide (r.a = m), c := decide (m.toNat ≤ r.a.toNat) } }
  let cpx : Byte → Regs → Regs := fun m r =>
    { r with p := { r.p with n := bit (r.x - m) 7, z := decide (r.x = m), c := decide (m.toNat ≤ r.x.toNat) } }
  let cpy : Byte → Regs → Regs := fun m r =>
    { r with p := { r.p with n := bit (r.y - m) 7, z := decide (r.y = m), c := decide (m.toNat ≤ r.y.toNat) } }
  let test : Byte → Regs → Regs := fun m r =>
    { r with p := { r.p with n := bit m 7, v := bit m 6, z := decide (r.a &&& m = 0) } }
  ∀ (z h : Byte) (s : State), NoReset s →
    Form 0xC9 z h (.cmpImm z) s (fun t => t = { s with regs := cmp z s.regs }) ∧
    Form 0xC5 z h (.cmpZp z) s ((Access.zp z).Reads cmp s) ∧
    Form 0xD5 z h (.cmpZpx z) s ((Access.zpx z).Reads cmp s) ∧
    Form 0xCD z h (.cmpAbs z h) s ((Access.abs z h).Reads cmp s) ∧
    Form 0xDD z h (.cmpAbx z h) s ((Access.abx z h).Reads cmp s) ∧
    Form 0xD9 z h (.cmpAby z h) s ((Access.aby z h).Reads cmp s) ∧
    Form 0xC1 z h (.cmpIzx z) s ((Access.izx z).Reads cmp s) ∧
    Form 0xD1 z h (.cmpIzy z) s ((Access.izy z).Reads cmp s) ∧
    Form 0xE0 z h (.cpxImm z) s (fun t => t = { s with regs := cpx z s.regs }) ∧
    Form 0xE4 z h (.cpxZp z) s ((Access.zp z).Reads cpx s) ∧
    Form 0xEC z h (.cpxAbs z h) s ((Access.abs z h).Reads cpx s) ∧
    Form 0xC0 z h (.cpyImm z) s (fun t => t = { s with regs := cpy z s.regs }) ∧
    Form 0xC4 z h (.cpyZp z) s ((Access.zp z).Reads cpy s) ∧
    Form 0xCC z h (.cpyAbs z h) s ((Access.abs z h).Reads cpy s) ∧
    Form 0x24 z h (.bitZp z) s ((Access.zp z).Reads test s) ∧
    Form 0x2C z h (.bitAbs z h) s ((Access.abs z h).Reads test s)

/-- Each INC and DEC opcode, from its operand fetch on, completes when CPU-RESET does not fall: the byte m is read,
written back unmodified, then m + 1 (or m - 1) mod 256 is written; N and Z follow the result; C, V, D, I and the
registers keep their values; every other RAM byte reads as before. -/
def Obligations.IncDecModify : Prop :=
  let flags : Byte → Regs → Regs := fun v r => { r with p := { r.p with n := bit v 7, z := decide (v = 0) } }
  ∀ (z h : Byte) (s : State), NoReset s →
    Form 0xE6 z h (.incZp z) s ((Access.zp z).Modifies (fun m _ => m + 1) (fun m r => flags (m + 1) r) s) ∧
    Form 0xF6 z h (.incZpx z) s ((Access.zpx z).Modifies (fun m _ => m + 1) (fun m r => flags (m + 1) r) s) ∧
    Form 0xEE z h (.incAbs z h) s
      ((Access.abs z h).Modifies (fun m _ => m + 1) (fun m r => flags (m + 1) r) s) ∧
    Form 0xFE z h (.incAbx z h) s
      ((Access.abx z h).Modifies (fun m _ => m + 1) (fun m r => flags (m + 1) r) s) ∧
    Form 0xC6 z h (.decZp z) s ((Access.zp z).Modifies (fun m _ => m - 1) (fun m r => flags (m - 1) r) s) ∧
    Form 0xD6 z h (.decZpx z) s ((Access.zpx z).Modifies (fun m _ => m - 1) (fun m r => flags (m - 1) r) s) ∧
    Form 0xCE z h (.decAbs z h) s
      ((Access.abs z h).Modifies (fun m _ => m - 1) (fun m r => flags (m - 1) r) s) ∧
    Form 0xDE z h (.decAbx z h) s
      ((Access.abx z h).Modifies (fun m _ => m - 1) (fun m r => flags (m - 1) r) s)

/-- INX, INY, DEX and DEY make one dummy read of PC, step the register by one mod 256 and set N and Z from it; C, V,
D, I and the other registers keep their values, and memory is unchanged. -/
def Obligations.RegisterIncDec : Prop :=
  let nz : Byte → Flags → Flags := fun v p => { p with n := bit v 7, z := decide (v = 0) }
  ∀ (z h : Byte) (s : State), NoReset s →
    Form 0xE8 z h .inx s
      (fun t => ∃ d, After s s t { s.regs with x := s.regs.x + 1, p := nz (s.regs.x + 1) s.regs.p } [rd s.regs.pc d]) ∧
    Form 0xC8 z h .iny s
      (fun t => ∃ d, After s s t { s.regs with y := s.regs.y + 1, p := nz (s.regs.y + 1) s.regs.p } [rd s.regs.pc d]) ∧
    Form 0xCA z h .dex s
      (fun t => ∃ d, After s s t { s.regs with x := s.regs.x - 1, p := nz (s.regs.x - 1) s.regs.p } [rd s.regs.pc d]) ∧
    Form 0x88 z h .dey s
      (fun t => ∃ d, After s s t { s.regs with y := s.regs.y - 1, p := nz (s.regs.y - 1) s.regs.p } [rd s.regs.pc d])

/-- Each opcode of ASL, LSR, ROL and ROR, from its operand fetch on, completes when CPU-RESET does not fall. The
memory forms read m, write it back unmodified and write the result; the A forms make a dummy read of PC and put
the result in A. C takes the bit shifted out, N and Z follow the result; V, D, I and the other registers keep
their values, and every other RAM byte reads as before. -/
def Obligations.ShiftsShift : Prop :=
  let flags : Byte → Bool → Regs → Regs := fun v co r =>
    { r with p := { r.p with n := bit v 7, z := decide (v = 0), c := co } }
  let asl : Byte → Regs → Byte := fun m _ => m <<< 1
  let lsr : Byte → Regs → Byte := fun m _ => m >>> 1
  let rol : Byte → Regs → Byte := fun m r => (m <<< 1) ||| (if r.p.c then 1 else 0)
  let ror : Byte → Regs → Byte := fun m r => (m >>> 1) ||| (if r.p.c then 0x80 else 0)
  ∀ (z h : Byte) (s : State), NoReset s →
    Form 0x0A z h .aslAcc s
      (fun t => ∃ d, After s s t { flags (asl s.regs.a s.regs) (bit s.regs.a 7) s.regs with a := asl s.regs.a s.regs }
        [rd s.regs.pc d]) ∧
    Form 0x06 z h (.aslZp z) s ((Access.zp z).Modifies asl (fun m r => flags (asl m r) (bit m 7) r) s) ∧
    Form 0x16 z h (.aslZpx z) s ((Access.zpx z).Modifies asl (fun m r => flags (asl m r) (bit m 7) r) s) ∧
    Form 0x0E z h (.aslAbs z h) s ((Access.abs z h).Modifies asl (fun m r => flags (asl m r) (bit m 7) r) s) ∧
    Form 0x1E z h (.aslAbx z h) s ((Access.abx z h).Modifies asl (fun m r => flags (asl m r) (bit m 7) r) s) ∧
    Form 0x4A z h .lsrAcc s
      (fun t => ∃ d, After s s t { flags (lsr s.regs.a s.regs) (bit s.regs.a 0) s.regs with a := lsr s.regs.a s.regs }
        [rd s.regs.pc d]) ∧
    Form 0x46 z h (.lsrZp z) s ((Access.zp z).Modifies lsr (fun m r => flags (lsr m r) (bit m 0) r) s) ∧
    Form 0x56 z h (.lsrZpx z) s ((Access.zpx z).Modifies lsr (fun m r => flags (lsr m r) (bit m 0) r) s) ∧
    Form 0x4E z h (.lsrAbs z h) s ((Access.abs z h).Modifies lsr (fun m r => flags (lsr m r) (bit m 0) r) s) ∧
    Form 0x5E z h (.lsrAbx z h) s ((Access.abx z h).Modifies lsr (fun m r => flags (lsr m r) (bit m 0) r) s) ∧
    Form 0x2A z h .rolAcc s
      (fun t => ∃ d, After s s t { flags (rol s.regs.a s.regs) (bit s.regs.a 7) s.regs with a := rol s.regs.a s.regs }
        [rd s.regs.pc d]) ∧
    Form 0x26 z h (.rolZp z) s ((Access.zp z).Modifies rol (fun m r => flags (rol m r) (bit m 7) r) s) ∧
    Form 0x36 z h (.rolZpx z) s ((Access.zpx z).Modifies rol (fun m r => flags (rol m r) (bit m 7) r) s) ∧
    Form 0x2E z h (.rolAbs z h) s ((Access.abs z h).Modifies rol (fun m r => flags (rol m r) (bit m 7) r) s) ∧
    Form 0x3E z h (.rolAbx z h) s ((Access.abx z h).Modifies rol (fun m r => flags (rol m r) (bit m 7) r) s) ∧
    Form 0x6A z h .rorAcc s
      (fun t => ∃ d, After s s t { flags (ror s.regs.a s.regs) (bit s.regs.a 0) s.regs with a := ror s.regs.a s.regs }
        [rd s.regs.pc d]) ∧
    Form 0x66 z h (.rorZp z) s ((Access.zp z).Modifies ror (fun m r => flags (ror m r) (bit m 0) r) s) ∧
    Form 0x76 z h (.rorZpx z) s ((Access.zpx z).Modifies ror (fun m r => flags (ror m r) (bit m 0) r) s) ∧
    Form 0x6E z h (.rorAbs z h) s ((Access.abs z h).Modifies ror (fun m r => flags (ror m r) (bit m 0) r) s) ∧
    Form 0x7E z h (.rorAbx z h) s ((Access.abx z h).Modifies ror (fun m r => flags (ror m r) (bit m 0) r) s)

/-- For each branch, from its operand fetch on (PC is then PC_next): when its condition does not hold, nothing changes
at all; when it holds, PC becomes PC_next plus the sign-extended offset mod 65536 after a dummy read at PC_next
and, when the target is on another page, a second dummy read at PC_next's page with the target's low byte. No flag
and no other register changes. -/
def Obligations.BranchesBranch : Prop :=
  let taken : Byte → State → State → Prop := fun off s t =>
    let target := s.regs.pc + sext16 off
    if hiByte target = hiByte s.regs.pc then ∃ d, After s s t { s.regs with pc := target } [rd s.regs.pc d]
    else ∃ d e, After s s t { s.regs with pc := target }
      [rd s.regs.pc d, rd (word (hiByte s.regs.pc) (loByte target)) e]
  ∀ (z h : Byte) (s : State), NoReset s →
    (s.regs.p.c = false → Form 0x90 z h (.bccRel z) s (taken z s)) ∧
    (s.regs.p.c = true → Form 0x90 z h (.bccRel z) s (fun t => t = s)) ∧
    (s.regs.p.c = true → Form 0xB0 z h (.bcsRel z) s (taken z s)) ∧
    (s.regs.p.c = false → Form 0xB0 z h (.bcsRel z) s (fun t => t = s)) ∧
    (s.regs.p.z = true → Form 0xF0 z h (.beqRel z) s (taken z s)) ∧
    (s.regs.p.z = false → Form 0xF0 z h (.beqRel z) s (fun t => t = s)) ∧
    (s.regs.p.n = true → Form 0x30 z h (.bmiRel z) s (taken z s)) ∧
    (s.regs.p.n = false → Form 0x30 z h (.bmiRel z) s (fun t => t = s)) ∧
    (s.regs.p.z = false → Form 0xD0 z h (.bneRel z) s (taken z s)) ∧
    (s.regs.p.z = true → Form 0xD0 z h (.bneRel z) s (fun t => t = s)) ∧
    (s.regs.p.n = false → Form 0x10 z h (.bplRel z) s (taken z s)) ∧
    (s.regs.p.n = true → Form 0x10 z h (.bplRel z) s (fun t => t = s)) ∧
    (s.regs.p.v = false → Form 0x50 z h (.bvcRel z) s (taken z s)) ∧
    (s.regs.p.v = true → Form 0x50 z h (.bvcRel z) s (fun t => t = s)) ∧
    (s.regs.p.v = true → Form 0x70 z h (.bvsRel z) s (taken z s)) ∧
    (s.regs.p.v = false → Form 0x70 z h (.bvsRel z) s (fun t => t = s))

/-- JMP abs, from the fetch of its low operand byte on, reads the target's high byte at PC, sets PC to the target with
that bus cycle, and changes nothing else. JMP (abs) reads the pointer's low byte at hi:lo and its high byte at
hi:(lo + 1 mod 256), in the same page, sets PC to them, and changes nothing else. -/
def Obligations.JumpsJump : Prop :=
  ∀ (z h : Byte) (s : State), NoReset s →
    Form 0x4C z h (.jmpAbs z h) s (fun t => ∃ m, (plainAt s s.regs.pc = true → m = peek s s.regs.pc) ∧
      After s s t { s.regs with pc := word m z } [rd s.regs.pc m]) ∧
    Form 0x6C z h (.jmpInd z h) s (fun t => ∃ l m,
      (plainAt s (word h z) = true → l = peek s (word h z)) ∧
      (plainAt s (word h (z + 1)) = true → m = peek s (word h (z + 1))) ∧
      After s s t { s.regs with pc := word m l } [rd (word h z) l, rd (word h (z + 1)) m])

/-- JSR, from the fetch of its low operand byte on (PC is then the address of its last byte): it makes a dummy read at
$0100 + S, pushes PC's high and low bytes, reads the target's high byte m at PC after the pushes, and sets PC to
m:lo; S is two lower, no flag and no other register changes. -/
def Obligations.JsrCalls : Prop :=
  ∀ (z h : Byte) (s : State), NoReset s →
    let frame : List (Word × Byte) :=
      [(stackAt s.regs.s, hiByte s.regs.pc), (stackAt (s.regs.s - 1), loByte s.regs.pc)]
    Form 0x20 z h (.jsrAbs z h) s (fun t => ∃ d m,
      (plainAt s s.regs.pc = true → m = peek (stored s frame) s.regs.pc) ∧
      After s (stored s frame) t { s.regs with s := s.regs.s - 2, pc := word m z }
        [rd (stackAt s.regs.s) d, wr (stackAt s.regs.s) (hiByte s.regs.pc),
          wr (stackAt (s.regs.s - 1)) (loByte s.regs.pc), rd s.regs.pc m])

/-- RTS makes a dummy read of PC and one at $0100 + S, pulls the low and the high byte of an address, makes a dummy
read there, and sets PC to it plus 1 mod 65536; S is two higher, no flag and no other register changes, and memory
is unchanged. -/
def Obligations.RtsReturns : Prop :=
  ∀ (z h : Byte) (s : State), NoReset s →
    let l := peek s (stackAt (s.regs.s + 1))
    let m := peek s (stackAt (s.regs.s + 2))
    Form 0x60 z h .rts s
      (fun t => ∃ d e x, After s s t { s.regs with s := s.regs.s + 2, pc := word m l + 1 }
      [rd s.regs.pc d, rd (stackAt s.regs.s) e, rd (stackAt (s.regs.s + 1)) l, rd (stackAt (s.regs.s + 2)) m,
        rd (word m l) x])

/-- RTI makes a dummy read of PC and one at $0100 + S, pulls the byte p and loads N, V, D, I, Z, C from its bits 7, 6,
3, 2, 1, 0, pulls PC low and high, and continues there; S is three higher, A, X, Y and memory are unchanged. -/
def Obligations.RtiReturns : Prop :=
  ∀ (z h : Byte) (s : State), NoReset s →
    let p := peek s (stackAt (s.regs.s + 1))
    let l := peek s (stackAt (s.regs.s + 2))
    let m := peek s (stackAt (s.regs.s + 3))
    Form 0x40 z h .rti s
      (fun t => ∃ d e, After s s t
      { s.regs with
        s := s.regs.s + 3, pc := word m l
        p := { n := bit p 7, v := bit p 6, d := bit p 3, i := bit p 2, z := bit p 1, c := bit p 0 } }
      [rd s.regs.pc d, rd (stackAt s.regs.s) e, rd (stackAt (s.regs.s + 1)) p, rd (stackAt (s.regs.s + 2)) l,
        rd (stackAt (s.regs.s + 3)) m])

/-- BRK, from its opcode fetch on (PC is then BRK's address + 1): it reads and discards the padding byte, pushes BRK's
address + 2 high byte first, pushes the status with B = 1, sets I, and loads PC from $FFFE/$FFFF; S is three
lower; D, the other flags and A, X, Y are unchanged. -/
def Obligations.BrkEnters : Prop :=
  ∀ (z h : Byte) (s : State), NoReset s →
    let r := { s.regs with pc := s.regs.pc + 1 }
    let frame : List (Word × Byte) :=
      [(stackAt r.s, hiByte r.pc), (stackAt (r.s - 1), loByte r.pc), (stackAt (r.s - 2), pImage true r.p)]
    Form 0x00 z h .brk s (fun t => ∃ d l m, VectorAt (stored s frame) 0xFFFE l m ∧
      After s (stored s frame) t { r with s := r.s - 3, pc := word m l, p := { r.p with i := true } }
        [rd s.regs.pc d, wr (stackAt r.s) (hiByte r.pc), wr (stackAt (r.s - 1)) (loByte r.pc),
          wr (stackAt (r.s - 2)) (pImage true r.p), rd 0xFFFE l, rd 0xFFFF m])

/-- CLC, CLD, CLI, CLV, SEC, SED and SEI make one dummy read of PC and change exactly their one flag; NOP makes the
dummy read and changes no register and no flag. Memory and the device registers are unchanged. -/
def Obligations.FlagInstructions : Prop :=
  ∀ (z h : Byte) (s : State), NoReset s →
    Form 0x18 z h .clc s
      (fun t => ∃ d, After s s t { s.regs with p := { s.regs.p with c := false } } [rd s.regs.pc d]) ∧
    Form 0xD8 z h .cld s
      (fun t => ∃ d, After s s t { s.regs with p := { s.regs.p with d := false } } [rd s.regs.pc d]) ∧
    Form 0x58 z h .cli s
      (fun t => ∃ d, After s s t { s.regs with p := { s.regs.p with i := false } } [rd s.regs.pc d]) ∧
    Form 0xB8 z h .clv s
      (fun t => ∃ d, After s s t { s.regs with p := { s.regs.p with v := false } } [rd s.regs.pc d]) ∧
    Form 0x38 z h .sec s
      (fun t => ∃ d, After s s t { s.regs with p := { s.regs.p with c := true } } [rd s.regs.pc d]) ∧
    Form 0xF8 z h .sed s
      (fun t => ∃ d, After s s t { s.regs with p := { s.regs.p with d := true } } [rd s.regs.pc d]) ∧
    Form 0x78 z h .sei s
      (fun t => ∃ d, After s s t { s.regs with p := { s.regs.p with i := true } } [rd s.regs.pc d]) ∧
    Form 0xEA z h .nop s (fun t => ∃ d, After s s t s.regs [rd s.regs.pc d])

/-- Each DCP and ISC opcode, from its operand fetch on, completes when CPU-RESET does not fall: m is read, written
back unmodified, then m - 1 (DCP) or m + 1 (ISC) is written; DCP sets N, Z, C as a compare of A with the result,
ISC does SBC with the result, binary or decimal per D; nothing else in the registers changes and every other RAM
byte reads as before. -/
def Obligations.DcpIscModify : Prop :=
  let cmp : Byte → Regs → Regs := fun m r =>
    { r with p := { r.p with n := bit (r.a - m) 7, z := decide (r.a = m), c := decide (m.toNat ≤ r.a.toNat) } }
  let sub : Byte → Regs → Alu := fun m r => if r.p.d then subDecimal r.a m r.p.c else subBinary r.a m r.p.c
  let sbc : Byte → Regs → Regs := fun m r =>
    { r with
      a := (sub m r).res
      p := { r.p with n := (sub m r).n, v := (sub m r).v, z := (sub m r).z, c := (sub m r).c } }
  ∀ (z h : Byte) (s : State), NoReset s →
    Form 0xC7 z h (.dcpZp z) s ((Access.zp z).Modifies (fun m _ => m - 1) (fun m r => cmp (m - 1) r) s) ∧
    Form 0xD7 z h (.dcpZpx z) s ((Access.zpx z).Modifies (fun m _ => m - 1) (fun m r => cmp (m - 1) r) s) ∧
    Form 0xCF z h (.dcpAbs z h) s
      ((Access.abs z h).Modifies (fun m _ => m - 1) (fun m r => cmp (m - 1) r) s) ∧
    Form 0xDF z h (.dcpAbx z h) s
      ((Access.abx z h).Modifies (fun m _ => m - 1) (fun m r => cmp (m - 1) r) s) ∧
    Form 0xDB z h (.dcpAby z h) s
      ((Access.aby z h).Modifies (fun m _ => m - 1) (fun m r => cmp (m - 1) r) s) ∧
    Form 0xC3 z h (.dcpIzx z) s ((Access.izx z).Modifies (fun m _ => m - 1) (fun m r => cmp (m - 1) r) s) ∧
    Form 0xD3 z h (.dcpIzy z) s ((Access.izy z).Modifies (fun m _ => m - 1) (fun m r => cmp (m - 1) r) s) ∧
    Form 0xE7 z h (.iscZp z) s ((Access.zp z).Modifies (fun m _ => m + 1) (fun m r => sbc (m + 1) r) s) ∧
    Form 0xF7 z h (.iscZpx z) s ((Access.zpx z).Modifies (fun m _ => m + 1) (fun m r => sbc (m + 1) r) s) ∧
    Form 0xEF z h (.iscAbs z h) s
      ((Access.abs z h).Modifies (fun m _ => m + 1) (fun m r => sbc (m + 1) r) s) ∧
    Form 0xFF z h (.iscAbx z h) s
      ((Access.abx z h).Modifies (fun m _ => m + 1) (fun m r => sbc (m + 1) r) s) ∧
    Form 0xFB z h (.iscAby z h) s
      ((Access.aby z h).Modifies (fun m _ => m + 1) (fun m r => sbc (m + 1) r) s) ∧
    Form 0xE3 z h (.iscIzx z) s ((Access.izx z).Modifies (fun m _ => m + 1) (fun m r => sbc (m + 1) r) s) ∧
    Form 0xF3 z h (.iscIzy z) s ((Access.izy z).Modifies (fun m _ => m + 1) (fun m r => sbc (m + 1) r) s)

/-- Each RLA, RRA, SLO and SRE opcode, from its operand fetch on, completes when CPU-RESET does not fall: m is read,
written back unmodified, then the shifted byte r is written; RLA, SLO and SRE put the bit shifted out in C and set
A to A & r, A | r, A ^ r with N and Z from it; RRA adds r and the bit shifted out to A, binary or decimal per D.
Nothing else in the registers changes and every other RAM byte reads as before. -/
def Obligations.ShiftCombinations : Prop :=
  let setA : Byte → Bool → Regs → Regs := fun v co r =>
    { r with a := v, p := { r.p with n := bit v 7, z := decide (v = 0), c := co } }
  let asl : Byte → Regs → Byte := fun m _ => m <<< 1
  let lsr : Byte → Regs → Byte := fun m _ => m >>> 1
  let rol : Byte → Regs → Byte := fun m r => (m <<< 1) ||| (if r.p.c then 1 else 0)
  let ror : Byte → Regs → Byte := fun m r => (m >>> 1) ||| (if r.p.c then 0x80 else 0)
  let sum : Byte → Bool → Regs → Alu := fun v co r => if r.p.d then addDecimal r.a v co else addBinary r.a v co
  let addA : Byte → Bool → Regs → Regs := fun v co r =>
    { r with
      a := (sum v co r).res
      p := { r.p with n := (sum v co r).n, v := (sum v co r).v, z := (sum v co r).z, c := (sum v co r).c } }
  ∀ (z h : Byte) (s : State), NoReset s →
    Form 0x27 z h (.rlaZp z) s
      ((Access.zp z).Modifies rol (fun m r => setA (r.a &&& rol m r) (bit m 7) r) s) ∧
    Form 0x37 z h (.rlaZpx z) s
      ((Access.zpx z).Modifies rol (fun m r => setA (r.a &&& rol m r) (bit m 7) r) s) ∧
    Form 0x2F z h (.rlaAbs z h) s
      ((Access.abs z h).Modifies rol (fun m r => setA (r.a &&& rol m r) (bit m 7) r) s) ∧
    Form 0x3F z h (.rlaAbx z h) s
      ((Access.abx z h).Modifies rol (fun m r => setA (r.a &&& rol m r) (bit m 7) r) s) ∧
    Form 0x3B z h (.rlaAby z h) s
      ((Access.aby z h).Modifies rol (fun m r => setA (r.a &&& rol m r) (bit m 7) r) s) ∧
    Form 0x23 z h (.rlaIzx z) s
      ((Access.izx z).Modifies rol (fun m r => setA (r.a &&& rol m r) (bit m 7) r) s) ∧
    Form 0x33 z h (.rlaIzy z) s
      ((Access.izy z).Modifies rol (fun m r => setA (r.a &&& rol m r) (bit m 7) r) s) ∧
    Form 0x67 z h (.rraZp z) s ((Access.zp z).Modifies ror (fun m r => addA (ror m r) (bit m 0) r) s) ∧
    Form 0x77 z h (.rraZpx z) s ((Access.zpx z).Modifies ror (fun m r => addA (ror m r) (bit m 0) r) s) ∧
    Form 0x6F z h (.rraAbs z h) s ((Access.abs z h).Modifies ror (fun m r => addA (ror m r) (bit m 0) r) s) ∧
    Form 0x7F z h (.rraAbx z h) s ((Access.abx z h).Modifies ror (fun m r => addA (ror m r) (bit m 0) r) s) ∧
    Form 0x7B z h (.rraAby z h) s ((Access.aby z h).Modifies ror (fun m r => addA (ror m r) (bit m 0) r) s) ∧
    Form 0x63 z h (.rraIzx z) s ((Access.izx z).Modifies ror (fun m r => addA (ror m r) (bit m 0) r) s) ∧
    Form 0x73 z h (.rraIzy z) s ((Access.izy z).Modifies ror (fun m r => addA (ror m r) (bit m 0) r) s) ∧
    Form 0x07 z h (.sloZp z) s
      ((Access.zp z).Modifies asl (fun m r => setA (r.a ||| asl m r) (bit m 7) r) s) ∧
    Form 0x17 z h (.sloZpx z) s
      ((Access.zpx z).Modifies asl (fun m r => setA (r.a ||| asl m r) (bit m 7) r) s) ∧
    Form 0x0F z h (.sloAbs z h) s
      ((Access.abs z h).Modifies asl (fun m r => setA (r.a ||| asl m r) (bit m 7) r) s) ∧
    Form 0x1F z h (.sloAbx z h) s
      ((Access.abx z h).Modifies asl (fun m r => setA (r.a ||| asl m r) (bit m 7) r) s) ∧
    Form 0x1B z h (.sloAby z h) s
      ((Access.aby z h).Modifies asl (fun m r => setA (r.a ||| asl m r) (bit m 7) r) s) ∧
    Form 0x03 z h (.sloIzx z) s
      ((Access.izx z).Modifies asl (fun m r => setA (r.a ||| asl m r) (bit m 7) r) s) ∧
    Form 0x13 z h (.sloIzy z) s
      ((Access.izy z).Modifies asl (fun m r => setA (r.a ||| asl m r) (bit m 7) r) s) ∧
    Form 0x47 z h (.sreZp z) s
      ((Access.zp z).Modifies lsr (fun m r => setA (r.a ^^^ lsr m r) (bit m 0) r) s) ∧
    Form 0x57 z h (.sreZpx z) s
      ((Access.zpx z).Modifies lsr (fun m r => setA (r.a ^^^ lsr m r) (bit m 0) r) s) ∧
    Form 0x4F z h (.sreAbs z h) s
      ((Access.abs z h).Modifies lsr (fun m r => setA (r.a ^^^ lsr m r) (bit m 0) r) s) ∧
    Form 0x5F z h (.sreAbx z h) s
      ((Access.abx z h).Modifies lsr (fun m r => setA (r.a ^^^ lsr m r) (bit m 0) r) s) ∧
    Form 0x5B z h (.sreAby z h) s
      ((Access.aby z h).Modifies lsr (fun m r => setA (r.a ^^^ lsr m r) (bit m 0) r) s) ∧
    Form 0x43 z h (.sreIzx z) s
      ((Access.izx z).Modifies lsr (fun m r => setA (r.a ^^^ lsr m r) (bit m 0) r) s) ∧
    Form 0x53 z h (.sreIzy z) s
      ((Access.izy z).Modifies lsr (fun m r => setA (r.a ^^^ lsr m r) (bit m 0) r) s)

/-- ANC, ALR, ARR and SBX, whose last bus cycle is the operand fetch, complete with exactly the register and flag
results of their rules (ARR with its decimal fix-up when D = 1) and change nothing else. -/
def Obligations.ImmediateCombinations : Prop :=
  let anc : Byte → Regs → Regs := fun m r =>
    { r with
      a := r.a &&& m
      p := { r.p with n := bit (r.a &&& m) 7, z := decide (r.a &&& m = 0), c := bit (r.a &&& m) 7 } }
  let alr : Byte → Regs → Regs := fun m r =>
    { r with
      a := (r.a &&& m) >>> 1
      p :=
        { r.p with n := bit ((r.a &&& m) >>> 1) 7, z := decide ((r.a &&& m) >>> 1 = 0), c := bit (r.a &&& m) 0 } }
  let arr : Byte → Regs → Regs := fun m r =>
    let t := r.a &&& m
    let v := (t >>> 1) ||| (if r.p.c then 0x80 else 0)
    if r.p.d then
      let w := if (t &&& 0x0F).toNat + (t &&& 0x01).toNat > 5 then (v &&& 0xF0) ||| ((v + 6) &&& 0x0F) else v
      let carry := decide ((t &&& 0xF0).toNat + (t &&& 0x10).toNat > 0x50)
      { r with
        a := if carry then (w &&& 0x0F) ||| ((w + 0x60) &&& 0xF0) else w
        p := { r.p with n := r.p.c, z := decide (v = 0), v := bit (v ^^^ t) 6, c := carry } }
    else
      { r with a := v, p := { r.p with n := bit v 7, z := decide (v = 0), v := bit v 6 != bit v 5, c := bit v 6 } }
  let sbx : Byte → Regs → Regs := fun m r =>
    { r with
      x := (r.a &&& r.x) - m
      p :=
        { r.p with
          n := bit ((r.a &&& r.x) - m) 7
          z := decide ((r.a &&& r.x) - m = 0)
          c := decide (m.toNat ≤ (r.a &&& r.x).toNat) } }
  ∀ (z h : Byte) (s : State),
    Form 0x0B z h (.ancImm0B z) s (fun t => t = { s with regs := anc z s.regs }) ∧
    Form 0x2B z h (.ancImm2B z) s (fun t => t = { s with regs := anc z s.regs }) ∧
    Form 0x4B z h (.alrImm z) s (fun t => t = { s with regs := alr z s.regs }) ∧
    Form 0x6B z h (.arrImm z) s (fun t => t = { s with regs := arr z s.regs }) ∧
    Form 0xCB z h (.sbxImm z) s (fun t => t = { s with regs := sbx z s.regs })

/-- For every opcode byte: it decodes to an instruction of that opcode; if it is one of the 48 of R287, no operand
byte is fetched and the instruction is refused with that opcode in every state; if not, the instruction gives a
next state in every state. -/
def Obligations.RefusedOpcodesStop : Prop :=
  ∀ op b1 b2 : Byte, (decodeParts op b1 b2).opcode = op ∧
    (refusedOpcodes.contains op = true → operandFetches op = 0 ∧
      ∀ s : State, exec (decodeParts op b1 b2) s = .refused (.refusedOpcode op)) ∧
    (refusedOpcodes.contains op = false → ∀ s : State, ∃ t, exec (decodeParts op b1 b2) s = .next t) ∧
    refusedOpcodes.length = 48

/-- Bits 7..0 of PImage(b) are N, V, 1, b, D, I, Z, C, and the flags loaded from a byte are its bits 7, 6, 3, 2, 1, 0;
so the flags pulled from a pushed image are the flags pushed. -/
def Obligations.StatusImage : Prop :=
  ∀ (b : Bool) (p : Flags) (m : Byte),
    bit (pImage b p) 7 = p.n ∧ bit (pImage b p) 6 = p.v ∧ bit (pImage b p) 5 = true ∧ bit (pImage b p) 4 = b ∧
    bit (pImage b p) 3 = p.d ∧ bit (pImage b p) 2 = p.i ∧ bit (pImage b p) 1 = p.z ∧ bit (pImage b p) 0 = p.c ∧
    Flags.ofByte m = { n := bit m 7, v := bit m 6, d := bit m 3, i := bit m 2, z := bit m 1, c := bit m 0 } ∧
    Flags.ofByte (pImage b p) = p

/-- For all a, m and carry-in c: the result is a + m + c mod 256, C says that the sum exceeds 255, N is bit 7 of the
result, Z that it is 0, V is R400's sign formula, and V says that the sum of the two signed values and c leaves
-128..127. -/
def Obligations.BinaryAdditionLaw : Prop :=
  ∀ (a m : Byte) (c : Bool),
    let o := addBinary a m c
    let sum := a.toNat + m.toNat + (if c then 1 else 0)
    o.res.toNat = sum % 256 ∧ o.c = decide (sum > 0xFF) ∧ o.n = bit o.res 7 ∧ o.z = decide (o.res = 0) ∧
    o.v = decide ((a ^^^ o.res) &&& (m ^^^ o.res) &&& 0x80 ≠ 0) ∧
    (o.v = true ↔ a.toInt + m.toInt + (if c then 1 else 0) < -128 ∨ 127 < a.toInt + m.toInt + (if c then 1 else 0))

/-- For all a, m and carry-in c the result and the flags of decimal addition are those of R401's steps; and when a and
m are valid BCD, the result is the BCD sum mod 100 and C says that the sum exceeds 99. -/
def Obligations.DecimalAdditionLaw : Prop :=
  ∀ (a m : Byte) (c : Bool),
    let o := addDecimal a m c
    let k := if c then 1 else 0
    let lo0 := (a &&& 0x0F).toNat + (m &&& 0x0F).toNat + k
    let lo := if lo0 > 9 then lo0 + 6 else lo0
    let t0 := if lo ≤ 0x0F then (lo &&& 0x0F) + (a &&& 0xF0).toNat + (m &&& 0xF0).toNat
      else (lo &&& 0x0F) + (a &&& 0xF0).toNat + (m &&& 0xF0).toNat + 0x10
    let t := if t0 &&& 0x1F0 > 0x90 then t0 + 0x60 else t0
    o.res.toNat = t &&& 0xFF ∧ o.c = decide (t &&& 0xFF0 > 0xF0) ∧ o.n = t0.testBit 7 ∧
    o.z = decide ((a.toNat + m.toNat + k) % 256 = 0) ∧
    o.v = (((a.toNat ^^^ t0).testBit 7) && !((a.toNat ^^^ m.toNat).testBit 7)) ∧
    ∀ ah al mh ml : Nat, ah ≤ 9 → al ≤ 9 → mh ≤ 9 → ml ≤ 9 → a.toNat = 16 * ah + al → m.toNat = 16 * mh + ml →
      let sum := 10 * ah + al + (10 * mh + ml) + k
      o.res.toNat = 16 * (sum % 100 / 10) + sum % 10 ∧ o.c = decide (sum > 99)

/-- For all a, m and carry c, with borrow 1 - c: the result is a - m - borrow mod 256, C says a >= m + borrow, N is
bit 7 of the result, Z that it is 0, V is R402's sign formula and says that the signed difference leaves
-128..127, and the whole equals binary addition of a, m ^ $FF and c. -/
def Obligations.BinarySubtractionLaw : Prop :=
  ∀ (a m : Byte) (c : Bool),
    let o := subBinary a m c
    let k := if c then 0 else 1
    o.res = a - m - BitVec.ofNat 8 k ∧ o.c = decide (m.toNat + k ≤ a.toNat) ∧ o.n = bit o.res 7 ∧
    o.z = decide (o.res = 0) ∧ o.v = decide ((a ^^^ o.res) &&& 0x80 ≠ 0 ∧ (a ^^^ m) &&& 0x80 ≠ 0) ∧
    (o.v = true ↔ a.toInt - m.toInt - k < -128 ∨ 127 < a.toInt - m.toInt - k) ∧
    o = addBinary a (m ^^^ 0xFF) c

/-- For all a, m and carry c, the flags of decimal subtraction are those of binary subtraction and the result is that
of R403's steps; and when a and m are valid BCD, the result is the BCD difference less the borrow mod 100, and C =
1 says there was no borrow. -/
def Obligations.DecimalSubtractionLaw : Prop :=
  ∀ (a m : Byte) (c : Bool),
    let o := subDecimal a m c
    let k := if c then 0 else 1
    let b : Word := if c then 0 else 1
    let tl0 : Word := (a &&& 0x0F).setWidth 16 - (m &&& 0x0F).setWidth 16 - b
    let hi : Word := (a &&& 0xF0).setWidth 16 - (m &&& 0xF0).setWidth 16
    let tl : Word := if tl0 &&& 0x10 ≠ 0 then ((tl0 - 6) &&& 0x0F) ||| (hi - 0x10) else (tl0 &&& 0x0F) ||| hi
    o.n = (subBinary a m c).n ∧ o.v = (subBinary a m c).v ∧ o.z = (subBinary a m c).z ∧ o.c = (subBinary a m c).c ∧
    o.res = (if tl &&& 0x100 ≠ 0 then tl - 0x60 else tl).setWidth 8 ∧
    ∀ ah al mh ml : Nat, ah ≤ 9 → al ≤ 9 → mh ≤ 9 → ml ≤ 9 → a.toNat = 16 * ah + al → m.toNat = 16 * mh + ml →
      let diff := 100 + (10 * ah + al) - (10 * mh + ml) - k
      o.res.toNat = 16 * (diff % 100 / 10) + diff % 10 ∧ o.c = decide (100 ≤ diff)

/-- For every well-formed instruction i, with every value of its operand bytes, and whatever bytes follow: decode
(encode i ++ rest) answers i and rest, and the encoding has the length of its addressing mode. -/
def Obligations.DecodeOfEncode : Prop :=
  ∀ (i : Instr) (rest : List Byte), WellFormed i = true →
    decode (encode i ++ rest) = .ok (i, rest) ∧ (encode i).length = opcodeLength i.opcode ∧
    (encode i).head? = some i.opcode

/-- If decoding a byte list answers an instruction and a rest, the list is the encoding of that instruction followed
by the rest: no bit of an operand is dropped and no two byte sequences share a meaning. -/
def Obligations.EncodeOfDecode : Prop :=
  ∀ (bs rest : List Byte) (i : Instr), decode bs = .ok (i, rest) → bs = encode i ++ rest

/-- Sixteen byte sequences written out from the opcode map, one or more of every family, decode to the instruction
they stand for. -/
def Obligations.DecodedWords : Prop :=
  decode [0xA9, 0x80] = .ok (.ldaImm 0x80, []) ∧
  decode [0x8D, 0x20, 0xD0] = .ok (.staAbs 0x20 0xD0, []) ∧
  decode [0xB1, 0xFB] = .ok (.ldaIzy 0xFB, []) ∧
  decode [0x69, 0x50] = .ok (.adcImm 0x50, []) ∧
  decode [0x24, 0x10] = .ok (.bitZp 0x10, []) ∧
  decode [0x1E, 0x34, 0x12] = .ok (.aslAbx 0x34 0x12, []) ∧
  decode [0x6A] = .ok (.rorAcc, []) ∧
  decode [0xD0, 0xF9] = .ok (.bneRel 0xF9, []) ∧
  decode [0x6C, 0x00, 0x03] = .ok (.jmpInd 0x00 0x03, []) ∧
  decode [0x00] = .ok (.brk, []) ∧
  decode [0x78] = .ok (.sei, []) ∧
  decode [0x9A] = .ok (.txs, []) ∧
  decode [0x68] = .ok (.pla, []) ∧
  decode [0xA7, 0x10] = .ok (.laxZp 0x10, []) ∧
  decode [0xCB, 0x05] = .ok (.sbxImm 0x05, []) ∧
  decode [0xDB, 0x00, 0xC0] = .ok (.dcpAby 0x00 0xC0, [])

/-- In a built, running machine at a boundary with nothing pending, while CPU-RESET does not fall: the step reads the
opcode at PC and the operand bytes after it, PC moves past the bytes fetched, and the step is exec of the decoded
instruction at the state so reached, followed by the end of the instruction (finish). All operand bytes are
fetched but the high byte of JSR and JMP abs, which the instruction reads itself. Bytes read at plain addresses
are the memory's. -/
def Obligations.StepRunsTheDecodedInstruction : Prop :=
  ∀ s : State, NoReset s → notBuilt s = false → s.status.run = true → atBoundary s = true →
    s.latches.resetPending = false → s.latches.takeNmi = false → s.latches.takeIrq = false →
    ∃ (op b1 b2 : Byte) (t : State),
      (plainAt s s.regs.pc = true → op = peek s s.regs.pc) ∧
      (plainAt s (s.regs.pc + 1) = true → b1 = peek s (s.regs.pc + 1)) ∧
      (plainAt s (s.regs.pc + 2) = true → b2 = peek s (s.regs.pc + 2)) ∧
      After s s t { s.regs with pc := s.regs.pc + 1 + BitVec.ofNat 16 (operandFetches op) }
        ([rd s.regs.pc op, rd (s.regs.pc + 1) b1, rd (s.regs.pc + 2) b2].take (1 + operandFetches op)) ∧
      (op ≠ 0x20 → op ≠ 0x4C → admittedOpcode op = true → 1 + operandFetches op = opcodeLength op) ∧
      step s = finishOutcome (exec (decodeParts op b1 b2) t)

/-- In a built, running machine at a boundary: a pending reset runs the reset sequence; else a due NMI runs the NMI
sequence, which starts by clearing nmi_edge; else a due IRQ runs the IRQ sequence; else the next instruction runs.
(That nmi_edge is cleared before cycle 1 is the model's reading of R47, R552 and R554, log 15.) -/
def Obligations.RecognitionOrder : Prop :=
  ∀ s : State, notBuilt s = false → s.status.run = true → atBoundary s = true →
    (s.latches.resetPending = true →
      step s = finishOutcome (run resetSequence (enter .reset (resetEntry s)))) ∧
    (s.latches.resetPending = false → s.latches.takeNmi = true →
      step s = finishOutcome (run (interruptSequence 0xFFFA)
        (enter .nmi { s with latches := { s.latches with nmiEdge := false } }))) ∧
    (s.latches.resetPending = false → s.latches.takeNmi = false → s.latches.takeIrq = true →
      step s = finishOutcome (run (interruptSequence 0xFFFE) (enter .irq s))) ∧
    (s.latches.resetPending = false → s.latches.takeNmi = false → s.latches.takeIrq = false →
      step s = runInstruction (enter .instruction s))

/-- For either vector V: the sequence makes two dummy reads of PC, pushes PC high byte first, pushes the status with B
= 0, sets I, and loads PC from V and V + 1; S is three lower; D, the other flags and A, X, Y are unchanged, and
the only bytes written are the three pushed. -/
def Obligations.InterruptEntry : Prop :=
  ∀ (v : Word) (s : State), NoReset s →
    let r := s.regs
    let frame : List (Word × Byte) :=
      [(stackAt r.s, hiByte r.pc), (stackAt (r.s - 1), loByte r.pc), (stackAt (r.s - 2), pImage false r.p)]
    Gives (run (interruptSequence v) s) fun t => ∃ d e l m, VectorAt (stored s frame) v l m ∧
      After s (stored s frame) t { r with s := r.s - 3, pc := word m l, p := { r.p with i := true } }
        [rd r.pc d, rd r.pc e, wr (stackAt r.s) (hiByte r.pc), wr (stackAt (r.s - 1)) (loByte r.pc),
          wr (stackAt (r.s - 2)) (pImage false r.p), rd v l, rd (v + 1) m]

/-- A master cycle in which the CPU has the bus forms the sample (nmi_edge, IRQ low and I clear) after the register
update and keeps the one before it; one in which the CPU is stalled forms none. At the end of an instruction
take_nmi, take_irq and irq_pending come from the older of the two samples. -/
def Obligations.PollDecides : Prop :=
  ∀ (op : BusOp) (upd : Byte → Regs → Regs) (s : State), NoReset s →
    let u := (busPhase op upd (cpuView s)).2
    let t := (masterCycle false op upd s).state
    (granted op (cpuView s) = true →
      t.latches.poll1 = ⟨u.latches.nmiEdge, irqLow u && !u.regs.p.i⟩ ∧ t.latches.poll2 = s.latches.poll1) ∧
    (granted op (cpuView s) = false → t.latches.poll1 = s.latches.poll1 ∧ t.latches.poll2 = s.latches.poll2) ∧
    (finish t).latches.takeNmi = t.latches.poll2.nmi ∧ (finish t).latches.takeIrq = t.latches.poll2.irq ∧
    (finish t).latches.irqPending = (finish t).latches.takeIrq

/-- With a reset pending in a built, running machine at a boundary: the step gives a next state in which A = X = Y =
0, S = $FD, only I is set, PC is the word at $FFFC/$FFFD; it made the seven reads of R571 and no write. It is the
reset sequence run from the entry state: the state at the boundary with A, X, Y, S and the flags so set, nmi_edge
and reset_pending cleared and nmi_prev high. -/
def Obligations.ResetSequenceRuns : Prop :=
  ∀ s : State, NoReset s → notBuilt s = false → s.status.run = true → atBoundary s = true →
    s.latches.resetPending = true →
    let flags : Flags := { n := false, v := false, d := false, i := true, z := false, c := false }
    let entry : State :=
      { s with
        regs := { a := 0, x := 0, y := 0, s := 0, pc := s.regs.pc, p := flags }
        latches := { s.latches with nmiEdge := false, nmiPrev := true, resetPending := false } }
    step s = finishOutcome (run resetSequence (enter .reset entry)) ∧
    Gives (step s) fun t => ∃ u, t = finish u ∧ ∃ d e f g k l m, VectorAt s 0xFFFC l m ∧
      After entry entry u { a := 0, x := 0, y := 0, s := 0xFD, pc := word m l, p := flags }
        [rd s.regs.pc d, rd s.regs.pc e, rd 0x0100 f, rd 0x01FF g, rd 0x01FE k, rd 0xFFFC l, rd 0xFFFD m]

/-- If CPU-RESET falls in the next master cycle: the bus cycle in progress ends the sequence with the reset state, in
which the registers, latches, port, pins, CIAs, VIC and SID have their reset values, RAM and colour RAM are loaded
from the initial image, the floating-bus value is $FF, a reset is pending, the parameters are kept and the cycle
counter has gone on by one. PC keeps the value that the completed bus cycle, register update and all, leaves in it
(that the update of that cycle counts is the model's reading of R571 and R572, log 27). (Which byte of the initial
image a colour cell takes is the model's reading of R57, log 2.) -/
def Obligations.ResetStrikes : Prop :=
  ∀ (op : BusOp) (upd : Byte → Regs → Regs) (s : State), resetEdge (inputPhase s) = true →
    Gives (run (.cycle op upd fun _ => .done ()) s) fun t =>
      busCycle op upd s = .error .reset t ∧ t.regs = Regs.reset t.regs.pc ∧
      (granted op (cpuView s) = true → t.regs.pc = (upd (access op (cpuView s)).1 s.regs).pc) ∧
      (granted op (cpuView s) = false → t.regs.pc = s.regs.pc) ∧
      t.latches = Latches.reset t.latches.resetPrev ∧ t.latches.resetPending = true ∧ t.port = ⟨0, 0⟩ ∧
      t.ram = s.params.ramInit ∧ t.colour = colourInit s.params.ramInit ∧ t.bus = 0xFF ∧ t.pins = Pins.reset ∧
      t.cia1 = Cia.reset ∧ t.cia2 = Cia.reset ∧ t.vic = Vic.reset ∧ t.sid = Sid.reset ∧ t.params = s.params ∧
      t.cycle = s.cycle + 1

/-- At power-on the cycle counter is 0, PC is $0000, a reset is pending, A = X = Y = S = 0, only I is set, the port is
all inputs, every interrupt producer is released and MMU mode is 31 with no cartridge; the first step takes seven
master cycles and leaves S = $FD, I = 1 and PC = $0000, the word at $FFFC of the empty KERNAL image. At any power-
on the reset detector starts at P_RESET(0), so cycle 0 sees no fall of CPU-RESET, and no key is pressed, no
joystick moved, RESTORE is released and no tape button is down. (The empty images are the model's defaults, log 1,
the idle inputs those of log 11, and that the machine starts with its run flag set, so that the first step runs,
is the model's choice, log 16.) -/
def Obligations.PowerOnState : Prop :=
  State.reset.cycle = 0 ∧ State.reset.regs = ⟨0, 0, 0, 0, 0, ⟨false, false, false, true, false, false⟩⟩ ∧
  State.reset.latches.resetPending = true ∧ State.reset.port = ⟨0, 0⟩ ∧
  irqLow State.reset = false ∧ nmiLow State.reset = false ∧
  mmuMode State.reset.params.cart.kind State.reset.port = 31 ∧
  Gives (step State.reset) fun t => t.cycle = 7 ∧ t.regs.s = 0xFD ∧ t.regs.p.i = true ∧ t.regs.pc = 0 ∧
    t.latches.resetPending = false ∧
    ∀ (p : Params) (inp : Inputs), resetEdge (inputPhase (State.powerOn p inp)) = false ∧
      (State.powerOn p inp).inputs.slow = ⟨Oct.fill 0, 0, 0, true, true⟩

/-- Before the first cycle, installing a ROM image of a wrong size makes every later step fault with ConfigError, and
so do parameters whose images do not fit their sizes; a built machine with the run flag clear does not move from a
boundary; and this is the only fault: a step of a built machine is a next state or a refusal. (What a step is in
these cases is the model's choice, log 16.) -/
def Obligations.RunFlagAndConfigError : Prop :=
  ∀ s : State,
    (s.cycle = 0 → paramsOk s.params = false → step s = .fault .configError) ∧
    (∀ (t : RomTarget) (img : List Byte), s.cycle = 0 → img.length ≠ t.size →
      step (loadRom t img s) = .fault .configError) ∧
    (notBuilt s = false → s.status.run = false → atBoundary s = true → step s = .next s) ∧
    (∀ f, step s = .fault f → f = .configError ∧ notBuilt s = true)

/-- In every master cycle in which CPU-RESET does not fall, nmi_edge is set if the NMI pin was high in the last cycle
and is low now, is not cleared, and nmi_prev takes the pin's level; the pin is low when CIA2 asserts it or RESTORE
is pressed. (The model clears nmi_edge at the entry to the NMI sequence, before its first master cycle, log 15.) -/
def Obligations.NmiEdgeDetector : Prop :=
  ∀ (force : Bool) (op : BusOp) (upd : Byte → Regs → Regs) (s : State), NoReset s →
    let low := s.pins.nmiCia2 || !s.inputs.slow.restore
    let t := (masterCycle force op upd s).state
    t.latches.nmiEdge = (s.latches.nmiEdge || (s.latches.nmiPrev && low)) ∧ t.latches.nmiPrev = !low

/-- While CPU-RESET does not fall: the CPU's bus operation runs in a master cycle exactly when AEC is high and it is a
write or BA is high or ba_low_count is below 3. Otherwise the CPU is stalled: the master cycle changes no
register, no memory, no floating-bus value, no sample, no micro-state and makes no tick callback; the device
registers are what the ticks of the devices alone make of them, so no read side effect happens; and the same bus
cycle is attempted again in the next master cycle. The cycle counter goes on in both cases. -/
def Obligations.StallChangesNothing : Prop :=
  ∀ (op : BusOp) (upd : Byte → Regs → Regs) (s : State), NoReset s →
    let v := cpuView s
    let o := masterCycle false op upd s
    (o.done = true ↔ v.pins.aec = true ∧ (op.isWrite = true ∨ v.pins.ba = true ∨ v.vic.baLowCount < 3)) ∧
    (o.done = false → Passes s o.state ∧ o.state.latches.stalled = true ∧
      v.cia1 = s.cia1 ∧ v.cia2 = s.cia2 ∧ v.sid = s.sid ∧ v.vic = (s.vic.tick (vicView (inputPhase s))).vic ∧
      o.state = devicePhases { v with latches := { v.latches with stalled := true } } ∧
      ∀ n, busLoop op upd (n + 1) s = busLoop op upd n o.state) ∧
    o.state.cycle = s.cycle + 1

/-- While CPU-RESET does not fall, every bus cycle completes: exactly one transfer is recorded, at its address and in
its direction; the byte moved is the floating-bus value afterwards; a write moves the byte written and a read at a
plain address the byte there; RAM, colour RAM, port and device registers are those the write leaves. (That it
always completes rests on the bound of log 14.) -/
def Obligations.OneBusCycle : Prop :=
  ∀ (op : BusOp) (upd : Byte → Regs → Regs) (s : State), NoReset s →
    ∃ v t, busCycle op upd s = .ok v t ∧ t.bus = v ∧
      (∀ a, op = .read a → After s s t (upd v s.regs) [rd a v] ∧ (plainAt s a = true → v = peek s a)) ∧
      (∀ a w, op = .write a w → v = w ∧ After s (writeEffect s a w) t (upd v s.regs) [wr a w])

/-- On a PAL machine in which CPU-RESET does not fall, whatever the CPU's bus operation is, within 63 master cycles
there is one in which the CPU has the bus (cycle 11 of the line at the latest), so the stall counter of the model
never runs out. -/
def Obligations.PalBusIsGranted : Prop :=
  ∀ (op : BusOp) (upd : Byte → Regs → Regs) (s : State), NoReset s → s.params.model = .pal → s.vic.x < 63 →
    ∃ n, n < 63 ∧ granted op (cpuView ((fun u => (masterCycle false op upd u).state)^[n] s)) = true

/-- For each of the 32 modes and each of the 16 regions, the memory map selects the bank that the PLA table gives the
area containing the region. -/
def Obligations.PlaTable : Prop :=
  let low : List (List Bank) :=
    [[.ram, .ram, .ram, .ram, .ram, .ram, .ram],
      [.ram, .ram, .ram, .ram, .ram, .ram, .ram],
      [.ram, .ram, .ram, .romh, .ram, .char, .kernal],
      [.ram, .ram, .roml, .romh, .ram, .char, .kernal],
      [.ram, .ram, .ram, .ram, .ram, .ram, .ram],
      [.ram, .ram, .ram, .ram, .ram, .io, .ram],
      [.ram, .ram, .ram, .romh, .ram, .io, .kernal],
      [.ram, .ram, .roml, .romh, .ram, .io, .kernal],
      [.ram, .ram, .ram, .ram, .ram, .ram, .ram],
      [.ram, .ram, .ram, .ram, .ram, .char, .ram],
      [.ram, .ram, .ram, .ram, .ram, .char, .kernal],
      [.ram, .ram, .roml, .basic, .ram, .char, .kernal],
      [.ram, .ram, .ram, .ram, .ram, .ram, .ram],
      [.ram, .ram, .ram, .ram, .ram, .io, .ram],
      [.ram, .ram, .ram, .ram, .ram, .io, .kernal],
      [.ram, .ram, .roml, .basic, .ram, .io, .kernal]]
  let high : List (List Bank) :=
    [[.ram, .openBus, .roml, .openBus, .openBus, .io, .romh],
      [.ram, .openBus, .roml, .openBus, .openBus, .io, .romh],
      [.ram, .openBus, .roml, .openBus, .openBus, .io, .romh],
      [.ram, .openBus, .roml, .openBus, .openBus, .io, .romh],
      [.ram, .openBus, .roml, .openBus, .openBus, .io, .romh],
      [.ram, .openBus, .roml, .openBus, .openBus, .io, .romh],
      [.ram, .openBus, .roml, .openBus, .openBus, .io, .romh],
      [.ram, .openBus, .roml, .openBus, .openBus, .io, .romh],
      [.ram, .ram, .ram, .ram, .ram, .ram, .ram],
      [.ram, .ram, .ram, .ram, .ram, .char, .ram],
      [.ram, .ram, .ram, .ram, .ram, .char, .kernal],
      [.ram, .ram, .ram, .basic, .ram, .char, .kernal],
      [.ram, .ram, .ram, .ram, .ram, .ram, .ram],
      [.ram, .ram, .ram, .ram, .ram, .io, .ram],
      [.ram, .ram, .ram, .ram, .ram, .io, .kernal],
      [.ram, .ram, .ram, .basic, .ram, .io, .kernal]]
  let area : List Nat := [0, 1, 1, 1, 1, 1, 1, 1, 2, 2, 3, 3, 4, 5, 6, 6]
  ∀ mode < 32, ∀ region < 16,
    (((low ++ high)[mode]?.getD [])[area[region]?.getD 0]?) = some (memoryMap mode region)

/-- For every cartridge type and every value of the two port registers: mode = 16 EXROM + 8 GAME + 4 CHAREN + 2 HIRAM
+ LORAM, where each of the last three is the data bit if its direction bit is 1 and 1 otherwise; and a read of
$0001 gives the data bits of the outputs and the pin levels of the inputs. -/
def Obligations.ModeBits : Prop :=
  ∀ (k : CartKind) (p : Port) (sense : Bool),
    let drive := fun i => if bit p.ddr i then (if bit p.data i then 1 else 0) else 1
    mmuMode k p = 16 * (if k = .none ∨ k = .ultimax then 1 else 0) + 8 * (if k = .none ∨ k = .k8 then 1 else 0) +
      4 * drive 2 + 2 * drive 1 + drive 0 ∧
    ∀ i < 8, bit (p.level sense) i =
      if bit p.ddr i then bit p.data i else decide (i ≠ 6) && decide (i ≠ 7) && (decide (i ≠ 4) || sense)

/-- For every state and address. Read: $0000 gives the port direction register and $0001 the port level; elsewhere the
bank of the address gives the byte of RAM, of the ROM image at its offset, of the I/O device, or the floating-bus
value. Write: $0000 and $0001 write the port and no RAM; elsewhere RAM, BASIC, KERNAL and CHAR banks, and ROML and
ROMH outside Ultimax, write the RAM byte; ROML and ROMH in Ultimax and the open areas discard the byte; the I/O
bank passes it to the device. The byte moved becomes the floating-bus value. -/
def Obligations.MemoryDispatch : Prop :=
  ∀ (s : State) (a : Word) (b : Byte),
    let v := (memRead a s).1
    let t := memWrite a b s
    (memRead a s).2.bus = v ∧ (a = 0 → v = s.port.ddr) ∧ (a = 1 → v = s.port.level s.inputs.slow.cassSense) ∧
    t.bus = b ∧ (a = 0 → t = { s with port := { s.port with ddr := b }, bus := b }) ∧
    (a = 1 → t = { s with port := { s.port with data := b }, bus := b }) ∧
    (a ≠ 0 → a ≠ 1 →
      (bankAt s a = .ram → v = Memory.read s.ram a.toNat) ∧
      (bankAt s a = .basic → v = Memory.read s.params.basicRom (a.toNat - 0xA000)) ∧
      (bankAt s a = .kernal → v = Memory.read s.params.kernalRom (a.toNat - 0xE000)) ∧
      (bankAt s a = .char → v = Memory.read s.params.charRom (a.toNat - 0xD000)) ∧
      (bankAt s a = .roml → v = Memory.read s.params.cart.roml (a.toNat - 0x8000)) ∧
      (bankAt s a = .romh → v = Memory.read s.params.cart.romh (a.toNat % 0x2000)) ∧
      (bankAt s a = .io → v = ioValue s (ioTarget a.toNat)) ∧ (bankAt s a = .openBus → v = s.bus) ∧
      (bankAt s a = .ram ∨ bankAt s a = .basic ∨ bankAt s a = .kernal ∨ bankAt s a = .char ∨
        ((bankAt s a = .roml ∨ bankAt s a = .romh) ∧ isUltimax s = false) →
        t = { s with ram := Memory.write s.ram a.toNat b, bus := b }) ∧
      (((bankAt s a = .roml ∨ bankAt s a = .romh) ∧ isUltimax s = true) ∨ bankAt s a = .openBus →
        t = { s with bus := b }) ∧
      (bankAt s a = .io → t = { ioWrite s (ioTarget a.toNat) b with bus := b }))

/-- For every address in $D000..$DFFF: the device and the register index are those of the I/O dispatch table, mirrors
included; colour RAM stores the low nibble and reads it under the floating-bus high nibble; the expansion areas
read the floating-bus value and discard writes. -/
def Obligations.IoDecode : Prop :=
  (∀ n, 0xD000 ≤ n → n < 0xE000 →
    (n < 0xD400 → ioTarget n = .vic (n % 0x40)) ∧ (0xD400 ≤ n → n < 0xD800 → ioTarget n = .sid (n % 0x20)) ∧
    (0xD800 ≤ n → n < 0xDC00 → ioTarget n = .colour (n % 0x400)) ∧
    (0xDC00 ≤ n → n < 0xDD00 → ioTarget n = .cia1 (n % 0x10)) ∧
    (0xDD00 ≤ n → n < 0xDE00 → ioTarget n = .cia2 (n % 0x10)) ∧ (0xDE00 ≤ n → ioTarget n = .expansion)) ∧
  ∀ (s : State) (i : Nat) (v : Byte),
    ioWrite s (.colour i) v = { s with colour := Memory.write s.colour i (v &&& 0x0F) } ∧
    ioValue s (.colour i) = (s.bus &&& 0xF0) ||| (Memory.read s.colour i &&& 0x0F) ∧
    ioValue s .expansion = s.bus ∧ ioWrite s .expansion v = s

/-- Over one VIC tick, irr bit 0 afterwards is irr bit 0 before or the fact that the tick's position is x = 0 of the
line in the compare register, whatever the mask holds and whatever the other parts of the tick do. -/
def Obligations.RasterCompare : Prop :=
  ∀ (v : Vic) (w : VicView), bit (v.tick w).vic.irr 0 = (bit v.irr 0 || decide (v.x = 0 ∧ v.y = v.rasterCmp.toNat))

/-- From a position within the frame, a VIC tick moves to the next x, at the end of a line to x = 0 of the next line,
and at the end of the last line to (0, 0); the vsync event happens in that last case and in no other. -/
def Obligations.RasterPosition : Prop :=
  ∀ (v : Vic) (w : VicView), v.x < cyclesPerLine w.params.model → v.y < linesPerFrame w.params.model →
    let last := v.x + 1 = cyclesPerLine w.params.model
    ((v.tick w).vic.x = if last then 0 else v.x + 1) ∧
    ((v.tick w).vic.y = if last then (if v.y + 1 = linesPerFrame w.params.model then 0 else v.y + 1) else v.y) ∧
    ((v.tick w).vsync = true ↔ last ∧ v.y + 1 = linesPerFrame w.params.model) ∧
    cyclesPerLine .pal = 63 ∧ linesPerFrame .pal = 312 ∧ cyclesPerLine .ntsc = 65 ∧ linesPerFrame .ntsc = 263

/-- With u the VIC after steps 1 to 7 of a tick: AEC is low exactly in the DMA cycles (bad line and c in 15..54, or
the two slot cycles of a sprite whose DMA is on), BA is low from three cycles before them, and ba_low_count counts
the low cycles before this one up to 3. -/
def Obligations.BusStealing : Prop :=
  ∀ (v : Vic) (w : VicView),
    let u := v.fetchSteps w
    let len := cyclesPerLine w.params.model
    let slot := fun n k => decide ((u.x + 1) % len = (spriteSlot w.params n + k) % len)
    let dma := fun n => (u.sprites.get n).dma
    ((v.tick w).aec = false ↔ (u.bad = true ∧ 15 ≤ u.x + 1 ∧ u.x + 1 ≤ 54) ∨
      ∃ n < 8, dma n = true ∧ (slot n 0 = true ∨ slot n 1 = true)) ∧
    ((v.tick w).vic.baPrev = false ↔ (u.bad = true ∧ 12 ≤ u.x + 1 ∧ u.x + 1 ≤ 54) ∨
      ∃ n < 8, dma n = true ∧ ∃ k < 5, (u.x + 1 + 3) % len = (spriteSlot w.params n + k) % len) ∧
    (v.tick w).vic.baLowCount = if v.baPrev then 0 else min (v.baLowCount + 1) 3

/-- A write of $D019 clears the latches whose bits are 1, a write of $D01A sets the mask; the interrupt producer is
asserted exactly when a latch and its mask bit are set; reading $D01E or $D01F clears it and nothing else; $D012
reads bits 7..0 of the raster line and $D011 its bit 8 above the stored bits 6..0; writing $D012 sets bits 7..0 of
the raster compare and writing $D011 stores bits 6..0 and sets bit 8 of the compare, and nothing else of the VIC
changes; $D02F..$D03F read $FF and ignore writes. -/
def Obligations.VicRegisters : Prop :=
  ∀ (s : State) (b : Byte) (r : Nat),
    let lines := linesPerFrame s.params.model
    let ry := if s.vic.x = 0 then (s.vic.y + lines - 1) % lines else s.vic.y
    let cmp := s.vic.rasterCmp.toNat
    ioValue s (.vic 0x12) = BitVec.ofNat 8 ry ∧
    (∀ k < 7, bit (ioValue s (.vic 0x11)) k = bit s.vic.cr1 k) ∧
    bit (ioValue s (.vic 0x11)) 7 = decide (256 ≤ ry) ∧
    (ioWrite s (.vic 0x12) b).vic = { s.vic with rasterCmp := BitVec.ofNat 9 (256 * (cmp / 256) + b.toNat) } ∧
    (ioWrite s (.vic 0x11) b).vic =
      { s.vic with
        cr1 := b &&& 0x7F, rasterCmp := BitVec.ofNat 9 ((if bit b 7 then 256 else 0) + cmp % 256) } ∧
    (ioWrite s (.vic 0x19) b).vic = { s.vic with irr := s.vic.irr &&& ~~~(b.setWidth 4) } ∧
    (ioWrite s (.vic 0x1A) b).vic = { s.vic with imr := b.setWidth 4 } ∧
    ((ioWrite s (.vic 0x19) b).pins.irqVic = true ↔ (s.vic.irr &&& ~~~(b.setWidth 4)) &&& s.vic.imr ≠ 0) ∧
    ((ioWrite s (.vic 0x1A) b).pins.irqVic = true ↔ s.vic.irr &&& b.setWidth 4 ≠ 0) ∧
    (ioReadEffect s (.vic 0x1E)).vic = { s.vic with collSprite := 0 } ∧
    (ioReadEffect s (.vic 0x1F)).vic = { s.vic with collBack := 0 } ∧
    (0x2F ≤ r → r < 0x40 → ioValue s (.vic r) = 0xFF ∧ (ioWrite s (.vic r) b).vic = s.vic)

/-- Let timer A be stopped with ICR bit 0 clear, and let a write to CRA start it (START and one-shot set, phi2
source). Whatever the other pins and timers do, after the tick of the cycle of the write (cycle t0) and k more
ticks: ICR bit 0 is set exactly when k is at least N + 2, where N is the latch; START is still set exactly before
that; and once it has fired the counter holds the latch. -/
def Obligations.TimerLatency : Prop :=
  ∀ (c : Cia) (v : Byte) (p : CiaPins) (ps : List CiaPins), bit c.icrData 0 = false → bit c.cra 0 = false →
    bit v 0 = true → bit v 3 = true → bit v 5 = false →
    let t := ps.foldl Cia.tick ((c.write 14 v).tick p)
    bit t.icrData 0 = decide (c.ta.latch.toNat + 2 ≤ ps.length) ∧
    bit t.cra 0 = decide (ps.length < c.ta.latch.toNat + 2) ∧
    (c.ta.latch.toNat + 2 ≤ ps.length → t.ta.counter = c.ta.latch)

/-- For either CIA: reading register 13 returns the five data bits with bit 7 set exactly when a data bit is enabled
by the mask, clears the data, and releases the pin producer at once; writing it sets the mask bits that are 1 if
bit 7 is 1 and clears them if not, leaves the data alone, and recomputes the producer at once. After a reset both
are 0. -/
def Obligations.IcrReadAndWrite : Prop :=
  ∀ (s : State) (v : Byte),
    let mask : BitVec 5 → BitVec 5 := fun m => if bit v 7 then m ||| v.setWidth 5 else m &&& ~~~(v.setWidth 5)
    let seen : Cia → Byte := fun c =>
      c.icrData.setWidth 8 ||| (if c.icrData &&& c.icrMask ≠ 0 then 0x80 else 0)
    ioValue s (.cia1 13) = seen s.cia1 ∧ ioValue s (.cia2 13) = seen s.cia2 ∧
    (ioReadEffect s (.cia1 13)).cia1 = { s.cia1 with icrData := 0 } ∧
    (ioReadEffect s (.cia1 13)).pins = { s.pins with irqCia1 := false } ∧
    (ioReadEffect s (.cia2 13)).cia2 = { s.cia2 with icrData := 0 } ∧
    (ioReadEffect s (.cia2 13)).pins = { s.pins with nmiCia2 := false } ∧
    (ioWrite s (.cia1 13) v).cia1 = { s.cia1 with icrMask := mask s.cia1.icrMask } ∧
    (ioWrite s (.cia1 13) v).pins = { s.pins with irqCia1 := decide (s.cia1.icrData &&& mask s.cia1.icrMask ≠ 0) } ∧
    (ioWrite s (.cia2 13) v).cia2 = { s.cia2 with icrMask := mask s.cia2.icrMask } ∧
    (ioWrite s (.cia2 13) v).pins = { s.pins with nmiCia2 := decide (s.cia2.icrData &&& mask s.cia2.icrMask ≠ 0) } ∧
    Cia.reset.icrData = 0 ∧ Cia.reset.icrMask = 0

/-- A read of SID register $19 or $1A returns the paddle byte that stands in its master cycle, $1B the top eight bits
of voice 3's waveform output, $1C voice 3's envelope; every other register reads $00, and writes to $19..$1F
change nothing. -/
def Obligations.SidReads : Prop :=
  ∀ (s : State) (r : Nat) (b : Byte), r < 0x20 →
    let now : PinInputs := (dueBy s.cycle s.inputs.pins s.inputs.schedule).1
    ioValue (cpuView s) (.sid 0x19) = now.potX ∧ ioValue (cpuView s) (.sid 0x1A) = now.potY ∧
    ioValue s (.sid 0x1B) = s.sid.v3.wave.extractLsb' 4 8 ∧ ioValue s (.sid 0x1C) = s.sid.v3.env ∧
    (r < 0x19 ∨ 0x1C < r → ioValue s (.sid r) = 0) ∧ (0x19 ≤ r → ioWrite s (.sid r) b = s)

/-- From every state that meets Inv, whatever instruction, interrupt or reset runs and wherever a reset cuts it short:
RAM and colour RAM stay in canonical form with 4-bit colour cells, the RAM bytes under the port keep their initial
values, the raster position stays in the frame, the bits that the spec gives no storage (bit 7 of $D011, bits 7
and 6 of $D016, bit 0 of $D018, bit 4 of CRA and CRB) stay clear where the registers are stored, the interrupt
producers follow their devices, and one sample and at most one bus cycle is recorded per master cycle. (That no
sample is ever dropped, so that their number is the cycle counter, is the model's choice, log 17.) -/
def Obligations.StepKeepsTheInvariant : Prop :=
  ∀ s t : State, Inv s → step s = .next t → Inv t

/-- Inv holds at State.reset. -/
def Obligations.ResetMeetsTheInvariant : Prop :=
  Inv State.reset

/-- Whatever a step does, the parameters (model, ROM images, cartridge, initial RAM, tables) and the host status are
afterwards what they were: ROM is read-only and a reset keeps it, the run flag and the last error change only by
the host's own acts. (The host status is here the run flag, the last error and the halt of R811; the motor line,
which R801 counts among status_flags and a step can change, is computed from the port, log 16.) -/
def Obligations.ParametersNeverChange : Prop :=
  ∀ s t : State, step s = .next t → t.params = s.params ∧ t.status = s.status
end

