-- ==== Sys2Proof/Laws/State.lean ====
section
/-! SUPPORT. What each named update of the state leaves alone, one lemma per field, so that no later proof unfolds a
record update. -/

namespace Sys2Proof.Machine

/-! ### inputPhase -/

@[simp] theorem inputPhase_regs (s : State) : (inputPhase s).regs = s.regs := rfl
@[simp] theorem inputPhase_latches (s : State) : (inputPhase s).latches = s.latches := rfl
@[simp] theorem inputPhase_port (s : State) : (inputPhase s).port = s.port := rfl
@[simp] theorem inputPhase_ram (s : State) : (inputPhase s).ram = s.ram := rfl
@[simp] theorem inputPhase_colour (s : State) : (inputPhase s).colour = s.colour := rfl
@[simp] theorem inputPhase_bus (s : State) : (inputPhase s).bus = s.bus := rfl
@[simp] theorem inputPhase_pins (s : State) : (inputPhase s).pins = s.pins := rfl
@[simp] theorem inputPhase_cia1 (s : State) : (inputPhase s).cia1 = s.cia1 := rfl
@[simp] theorem inputPhase_cia2 (s : State) : (inputPhase s).cia2 = s.cia2 := rfl
@[simp] theorem inputPhase_vic (s : State) : (inputPhase s).vic = s.vic := rfl
@[simp] theorem inputPhase_sid (s : State) : (inputPhase s).sid = s.sid := rfl
@[simp] theorem inputPhase_tape (s : State) : (inputPhase s).tape = s.tape := rfl
@[simp] theorem inputPhase_video (s : State) : (inputPhase s).video = s.video := rfl
@[simp] theorem inputPhase_audio (s : State) : (inputPhase s).audio = s.audio := rfl
@[simp] theorem inputPhase_ticks (s : State) : (inputPhase s).ticks = s.ticks := rfl
@[simp] theorem inputPhase_cycle (s : State) : (inputPhase s).cycle = s.cycle := rfl
@[simp] theorem inputPhase_status (s : State) : (inputPhase s).status = s.status := rfl
@[simp] theorem inputPhase_params (s : State) : (inputPhase s).params = s.params := rfl

/-! ### putVic -/

@[simp] theorem putVic_regs (o : VicOut) (s : State) : (putVic o s).regs = s.regs := rfl
@[simp] theorem putVic_latches (o : VicOut) (s : State) : (putVic o s).latches = s.latches := rfl
@[simp] theorem putVic_port (o : VicOut) (s : State) : (putVic o s).port = s.port := rfl
@[simp] theorem putVic_ram (o : VicOut) (s : State) : (putVic o s).ram = s.ram := rfl
@[simp] theorem putVic_colour (o : VicOut) (s : State) : (putVic o s).colour = s.colour := rfl
@[simp] theorem putVic_bus (o : VicOut) (s : State) : (putVic o s).bus = s.bus := rfl
@[simp] theorem putVic_cia1 (o : VicOut) (s : State) : (putVic o s).cia1 = s.cia1 := rfl
@[simp] theorem putVic_cia2 (o : VicOut) (s : State) : (putVic o s).cia2 = s.cia2 := rfl
@[simp] theorem putVic_sid (o : VicOut) (s : State) : (putVic o s).sid = s.sid := rfl
@[simp] theorem putVic_inputs (o : VicOut) (s : State) : (putVic o s).inputs = s.inputs := rfl
@[simp] theorem putVic_tape (o : VicOut) (s : State) : (putVic o s).tape = s.tape := rfl
@[simp] theorem putVic_audio (o : VicOut) (s : State) : (putVic o s).audio = s.audio := rfl
@[simp] theorem putVic_ticks (o : VicOut) (s : State) : (putVic o s).ticks = s.ticks := rfl
@[simp] theorem putVic_cycle (o : VicOut) (s : State) : (putVic o s).cycle = s.cycle := rfl
@[simp] theorem putVic_status (o : VicOut) (s : State) : (putVic o s).status = s.status := rfl
@[simp] theorem putVic_params (o : VicOut) (s : State) : (putVic o s).params = s.params := rfl

@[simp] theorem putVic_vic (o : VicOut) (s : State) : (putVic o s).vic = o.vic := rfl

/-! ### vicPhase -/

@[simp] theorem vicPhase_regs (s : State) : (vicPhase s).regs = s.regs := rfl
@[simp] theorem vicPhase_latches (s : State) : (vicPhase s).latches = s.latches := rfl
@[simp] theorem vicPhase_port (s : State) : (vicPhase s).port = s.port := rfl
@[simp] theorem vicPhase_ram (s : State) : (vicPhase s).ram = s.ram := rfl
@[simp] theorem vicPhase_colour (s : State) : (vicPhase s).colour = s.colour := rfl
@[simp] theorem vicPhase_bus (s : State) : (vicPhase s).bus = s.bus := rfl
@[simp] theorem vicPhase_cia1 (s : State) : (vicPhase s).cia1 = s.cia1 := rfl
@[simp] theorem vicPhase_cia2 (s : State) : (vicPhase s).cia2 = s.cia2 := rfl
@[simp] theorem vicPhase_sid (s : State) : (vicPhase s).sid = s.sid := rfl
@[simp] theorem vicPhase_inputs (s : State) : (vicPhase s).inputs = s.inputs := rfl
@[simp] theorem vicPhase_tape (s : State) : (vicPhase s).tape = s.tape := rfl
@[simp] theorem vicPhase_audio (s : State) : (vicPhase s).audio = s.audio := rfl
@[simp] theorem vicPhase_ticks (s : State) : (vicPhase s).ticks = s.ticks := rfl
@[simp] theorem vicPhase_cycle (s : State) : (vicPhase s).cycle = s.cycle := rfl
@[simp] theorem vicPhase_status (s : State) : (vicPhase s).status = s.status := rfl
@[simp] theorem vicPhase_params (s : State) : (vicPhase s).params = s.params := rfl

/-! ### detectEdges -/

@[simp] theorem detectEdges_regs (s : State) : (detectEdges s).regs = s.regs := rfl
@[simp] theorem detectEdges_port (s : State) : (detectEdges s).port = s.port := rfl
@[simp] theorem detectEdges_ram (s : State) : (detectEdges s).ram = s.ram := rfl
@[simp] theorem detectEdges_colour (s : State) : (detectEdges s).colour = s.colour := rfl
@[simp] theorem detectEdges_bus (s : State) : (detectEdges s).bus = s.bus := rfl
@[simp] theorem detectEdges_pins (s : State) : (detectEdges s).pins = s.pins := rfl
@[simp] theorem detectEdges_cia1 (s : State) : (detectEdges s).cia1 = s.cia1 := rfl
@[simp] theorem detectEdges_cia2 (s : State) : (detectEdges s).cia2 = s.cia2 := rfl
@[simp] theorem detectEdges_vic (s : State) : (detectEdges s).vic = s.vic := rfl
@[simp] theorem detectEdges_sid (s : State) : (detectEdges s).sid = s.sid := rfl
@[simp] theorem detectEdges_inputs (s : State) : (detectEdges s).inputs = s.inputs := rfl
@[simp] theorem detectEdges_tape (s : State) : (detectEdges s).tape = s.tape := rfl
@[simp] theorem detectEdges_video (s : State) : (detectEdges s).video = s.video := rfl
@[simp] theorem detectEdges_audio (s : State) : (detectEdges s).audio = s.audio := rfl
@[simp] theorem detectEdges_ticks (s : State) : (detectEdges s).ticks = s.ticks := rfl
@[simp] theorem detectEdges_cycle (s : State) : (detectEdges s).cycle = s.cycle := rfl
@[simp] theorem detectEdges_status (s : State) : (detectEdges s).status = s.status := rfl
@[simp] theorem detectEdges_params (s : State) : (detectEdges s).params = s.params := rfl

/-! ### cpuView -/

@[simp] theorem cpuView_regs (s : State) : (cpuView s).regs = s.regs := rfl
@[simp] theorem cpuView_port (s : State) : (cpuView s).port = s.port := rfl
@[simp] theorem cpuView_ram (s : State) : (cpuView s).ram = s.ram := rfl
@[simp] theorem cpuView_colour (s : State) : (cpuView s).colour = s.colour := rfl
@[simp] theorem cpuView_bus (s : State) : (cpuView s).bus = s.bus := rfl
@[simp] theorem cpuView_cia1 (s : State) : (cpuView s).cia1 = s.cia1 := rfl
@[simp] theorem cpuView_cia2 (s : State) : (cpuView s).cia2 = s.cia2 := rfl
@[simp] theorem cpuView_sid (s : State) : (cpuView s).sid = s.sid := rfl
@[simp] theorem cpuView_tape (s : State) : (cpuView s).tape = s.tape := rfl
@[simp] theorem cpuView_audio (s : State) : (cpuView s).audio = s.audio := rfl
@[simp] theorem cpuView_ticks (s : State) : (cpuView s).ticks = s.ticks := rfl
@[simp] theorem cpuView_cycle (s : State) : (cpuView s).cycle = s.cycle := rfl
@[simp] theorem cpuView_status (s : State) : (cpuView s).status = s.status := rfl
@[simp] theorem cpuView_params (s : State) : (cpuView s).params = s.params := rfl

/-! ### stallPhase -/

@[simp] theorem stallPhase_regs (s : State) : (stallPhase s).regs = s.regs := rfl
@[simp] theorem stallPhase_port (s : State) : (stallPhase s).port = s.port := rfl
@[simp] theorem stallPhase_ram (s : State) : (stallPhase s).ram = s.ram := rfl
@[simp] theorem stallPhase_colour (s : State) : (stallPhase s).colour = s.colour := rfl
@[simp] theorem stallPhase_bus (s : State) : (stallPhase s).bus = s.bus := rfl
@[simp] theorem stallPhase_pins (s : State) : (stallPhase s).pins = s.pins := rfl
@[simp] theorem stallPhase_cia1 (s : State) : (stallPhase s).cia1 = s.cia1 := rfl
@[simp] theorem stallPhase_cia2 (s : State) : (stallPhase s).cia2 = s.cia2 := rfl
@[simp] theorem stallPhase_vic (s : State) : (stallPhase s).vic = s.vic := rfl
@[simp] theorem stallPhase_sid (s : State) : (stallPhase s).sid = s.sid := rfl
@[simp] theorem stallPhase_inputs (s : State) : (stallPhase s).inputs = s.inputs := rfl
@[simp] theorem stallPhase_tape (s : State) : (stallPhase s).tape = s.tape := rfl
@[simp] theorem stallPhase_video (s : State) : (stallPhase s).video = s.video := rfl
@[simp] theorem stallPhase_audio (s : State) : (stallPhase s).audio = s.audio := rfl
@[simp] theorem stallPhase_ticks (s : State) : (stallPhase s).ticks = s.ticks := rfl
@[simp] theorem stallPhase_cycle (s : State) : (stallPhase s).cycle = s.cycle := rfl
@[simp] theorem stallPhase_status (s : State) : (stallPhase s).status = s.status := rfl
@[simp] theorem stallPhase_params (s : State) : (stallPhase s).params = s.params := rfl

/-! ### tapePhase -/

@[simp] theorem tapePhase_regs (s : State) : (tapePhase s).regs = s.regs := by unfold tapePhase; split <;> rfl
@[simp] theorem tapePhase_latches (s : State) : (tapePhase s).latches = s.latches := by unfold tapePhase; split <;> rfl
@[simp] theorem tapePhase_port (s : State) : (tapePhase s).port = s.port := by unfold tapePhase; split <;> rfl
@[simp] theorem tapePhase_ram (s : State) : (tapePhase s).ram = s.ram := by unfold tapePhase; split <;> rfl
@[simp] theorem tapePhase_colour (s : State) : (tapePhase s).colour = s.colour := by unfold tapePhase; split <;> rfl
@[simp] theorem tapePhase_bus (s : State) : (tapePhase s).bus = s.bus := by unfold tapePhase; split <;> rfl
@[simp] theorem tapePhase_pins (s : State) : (tapePhase s).pins = s.pins := by unfold tapePhase; split <;> rfl
@[simp] theorem tapePhase_cia1 (s : State) : (tapePhase s).cia1 = s.cia1 := by unfold tapePhase; split <;> rfl
@[simp] theorem tapePhase_cia2 (s : State) : (tapePhase s).cia2 = s.cia2 := by unfold tapePhase; split <;> rfl
@[simp] theorem tapePhase_vic (s : State) : (tapePhase s).vic = s.vic := by unfold tapePhase; split <;> rfl
@[simp] theorem tapePhase_sid (s : State) : (tapePhase s).sid = s.sid := by unfold tapePhase; split <;> rfl
@[simp] theorem tapePhase_inputs (s : State) : (tapePhase s).inputs = s.inputs := by unfold tapePhase; split <;> rfl
@[simp] theorem tapePhase_video (s : State) : (tapePhase s).video = s.video := by unfold tapePhase; split <;> rfl
@[simp] theorem tapePhase_audio (s : State) : (tapePhase s).audio = s.audio := by unfold tapePhase; split <;> rfl
@[simp] theorem tapePhase_ticks (s : State) : (tapePhase s).ticks = s.ticks := by unfold tapePhase; split <;> rfl
@[simp] theorem tapePhase_cycle (s : State) : (tapePhase s).cycle = s.cycle := by unfold tapePhase; split <;> rfl
@[simp] theorem tapePhase_status (s : State) : (tapePhase s).status = s.status := by unfold tapePhase; split <;> rfl
@[simp] theorem tapePhase_params (s : State) : (tapePhase s).params = s.params := by unfold tapePhase; split <;> rfl

/-! ### cia1Phase -/

@[simp] theorem cia1Phase_regs (s : State) : (cia1Phase s).regs = s.regs := rfl
@[simp] theorem cia1Phase_latches (s : State) : (cia1Phase s).latches = s.latches := rfl
@[simp] theorem cia1Phase_port (s : State) : (cia1Phase s).port = s.port := rfl
@[simp] theorem cia1Phase_ram (s : State) : (cia1Phase s).ram = s.ram := rfl
@[simp] theorem cia1Phase_colour (s : State) : (cia1Phase s).colour = s.colour := rfl
@[simp] theorem cia1Phase_bus (s : State) : (cia1Phase s).bus = s.bus := rfl
@[simp] theorem cia1Phase_cia2 (s : State) : (cia1Phase s).cia2 = s.cia2 := rfl
@[simp] theorem cia1Phase_vic (s : State) : (cia1Phase s).vic = s.vic := rfl
@[simp] theorem cia1Phase_sid (s : State) : (cia1Phase s).sid = s.sid := rfl
@[simp] theorem cia1Phase_inputs (s : State) : (cia1Phase s).inputs = s.inputs := rfl
@[simp] theorem cia1Phase_tape (s : State) : (cia1Phase s).tape = s.tape := rfl
@[simp] theorem cia1Phase_video (s : State) : (cia1Phase s).video = s.video := rfl
@[simp] theorem cia1Phase_audio (s : State) : (cia1Phase s).audio = s.audio := rfl
@[simp] theorem cia1Phase_ticks (s : State) : (cia1Phase s).ticks = s.ticks := rfl
@[simp] theorem cia1Phase_cycle (s : State) : (cia1Phase s).cycle = s.cycle := rfl
@[simp] theorem cia1Phase_status (s : State) : (cia1Phase s).status = s.status := rfl
@[simp] theorem cia1Phase_params (s : State) : (cia1Phase s).params = s.params := rfl

/-! ### cia2Phase -/

@[simp] theorem cia2Phase_regs (s : State) : (cia2Phase s).regs = s.regs := rfl
@[simp] theorem cia2Phase_latches (s : State) : (cia2Phase s).latches = s.latches := rfl
@[simp] theorem cia2Phase_port (s : State) : (cia2Phase s).port = s.port := rfl
@[simp] theorem cia2Phase_ram (s : State) : (cia2Phase s).ram = s.ram := rfl
@[simp] theorem cia2Phase_colour (s : State) : (cia2Phase s).colour = s.colour := rfl
@[simp] theorem cia2Phase_bus (s : State) : (cia2Phase s).bus = s.bus := rfl
@[simp] theorem cia2Phase_cia1 (s : State) : (cia2Phase s).cia1 = s.cia1 := rfl
@[simp] theorem cia2Phase_vic (s : State) : (cia2Phase s).vic = s.vic := rfl
@[simp] theorem cia2Phase_sid (s : State) : (cia2Phase s).sid = s.sid := rfl
@[simp] theorem cia2Phase_inputs (s : State) : (cia2Phase s).inputs = s.inputs := rfl
@[simp] theorem cia2Phase_tape (s : State) : (cia2Phase s).tape = s.tape := rfl
@[simp] theorem cia2Phase_video (s : State) : (cia2Phase s).video = s.video := rfl
@[simp] theorem cia2Phase_audio (s : State) : (cia2Phase s).audio = s.audio := rfl
@[simp] theorem cia2Phase_ticks (s : State) : (cia2Phase s).ticks = s.ticks := rfl
@[simp] theorem cia2Phase_cycle (s : State) : (cia2Phase s).cycle = s.cycle := rfl
@[simp] theorem cia2Phase_status (s : State) : (cia2Phase s).status = s.status := rfl
@[simp] theorem cia2Phase_params (s : State) : (cia2Phase s).params = s.params := rfl

/-! ### sidPhase -/

@[simp] theorem sidPhase_regs (s : State) : (sidPhase s).regs = s.regs := rfl
@[simp] theorem sidPhase_latches (s : State) : (sidPhase s).latches = s.latches := rfl
@[simp] theorem sidPhase_port (s : State) : (sidPhase s).port = s.port := rfl
@[simp] theorem sidPhase_ram (s : State) : (sidPhase s).ram = s.ram := rfl
@[simp] theorem sidPhase_colour (s : State) : (sidPhase s).colour = s.colour := rfl
@[simp] theorem sidPhase_bus (s : State) : (sidPhase s).bus = s.bus := rfl
@[simp] theorem sidPhase_pins (s : State) : (sidPhase s).pins = s.pins := rfl
@[simp] theorem sidPhase_cia1 (s : State) : (sidPhase s).cia1 = s.cia1 := rfl
@[simp] theorem sidPhase_cia2 (s : State) : (sidPhase s).cia2 = s.cia2 := rfl
@[simp] theorem sidPhase_vic (s : State) : (sidPhase s).vic = s.vic := rfl
@[simp] theorem sidPhase_inputs (s : State) : (sidPhase s).inputs = s.inputs := rfl
@[simp] theorem sidPhase_tape (s : State) : (sidPhase s).tape = s.tape := rfl
@[simp] theorem sidPhase_video (s : State) : (sidPhase s).video = s.video := rfl
@[simp] theorem sidPhase_ticks (s : State) : (sidPhase s).ticks = s.ticks := rfl
@[simp] theorem sidPhase_cycle (s : State) : (sidPhase s).cycle = s.cycle := rfl
@[simp] theorem sidPhase_status (s : State) : (sidPhase s).status = s.status := rfl
@[simp] theorem sidPhase_params (s : State) : (sidPhase s).params = s.params := rfl

/-! ### endPhase -/

@[simp] theorem endPhase_regs (s : State) : (endPhase s).regs = s.regs := by unfold endPhase; split <;> rfl
@[simp] theorem endPhase_latches (s : State) : (endPhase s).latches = s.latches := by unfold endPhase; split <;> rfl
@[simp] theorem endPhase_port (s : State) : (endPhase s).port = s.port := by unfold endPhase; split <;> rfl
@[simp] theorem endPhase_ram (s : State) : (endPhase s).ram = s.ram := by unfold endPhase; split <;> rfl
@[simp] theorem endPhase_colour (s : State) : (endPhase s).colour = s.colour := by unfold endPhase; split <;> rfl
@[simp] theorem endPhase_bus (s : State) : (endPhase s).bus = s.bus := by unfold endPhase; split <;> rfl
@[simp] theorem endPhase_pins (s : State) : (endPhase s).pins = s.pins := by unfold endPhase; split <;> rfl
@[simp] theorem endPhase_cia1 (s : State) : (endPhase s).cia1 = s.cia1 := by unfold endPhase; split <;> rfl
@[simp] theorem endPhase_cia2 (s : State) : (endPhase s).cia2 = s.cia2 := by unfold endPhase; split <;> rfl
@[simp] theorem endPhase_vic (s : State) : (endPhase s).vic = s.vic := by unfold endPhase; split <;> rfl
@[simp] theorem endPhase_sid (s : State) : (endPhase s).sid = s.sid := by unfold endPhase; split <;> rfl
@[simp] theorem endPhase_tape (s : State) : (endPhase s).tape = s.tape := by unfold endPhase; split <;> rfl
@[simp] theorem endPhase_audio (s : State) : (endPhase s).audio = s.audio := by unfold endPhase; split <;> rfl
@[simp] theorem endPhase_ticks (s : State) : (endPhase s).ticks = s.ticks := by unfold endPhase; split <;> rfl
@[simp] theorem endPhase_status (s : State) : (endPhase s).status = s.status := by unfold endPhase; split <;> rfl
@[simp] theorem endPhase_params (s : State) : (endPhase s).params = s.params := by unfold endPhase; split <;> rfl

@[simp] theorem endPhase_cycle (s : State) : (endPhase s).cycle = s.cycle + 1 := by unfold endPhase; split <;> rfl

/-! ### devicePhases -/

@[simp] theorem devicePhases_regs (s : State) : (devicePhases s).regs = s.regs := by simp [devicePhases]
@[simp] theorem devicePhases_latches (s : State) : (devicePhases s).latches = s.latches := by simp [devicePhases]
@[simp] theorem devicePhases_port (s : State) : (devicePhases s).port = s.port := by simp [devicePhases]
@[simp] theorem devicePhases_ram (s : State) : (devicePhases s).ram = s.ram := by simp [devicePhases]
@[simp] theorem devicePhases_colour (s : State) : (devicePhases s).colour = s.colour := by simp [devicePhases]
@[simp] theorem devicePhases_bus (s : State) : (devicePhases s).bus = s.bus := by simp [devicePhases]
@[simp] theorem devicePhases_vic (s : State) : (devicePhases s).vic = s.vic := by simp [devicePhases]
@[simp] theorem devicePhases_ticks (s : State) : (devicePhases s).ticks = s.ticks := by simp [devicePhases]
@[simp] theorem devicePhases_status (s : State) : (devicePhases s).status = s.status := by simp [devicePhases]
@[simp] theorem devicePhases_params (s : State) : (devicePhases s).params = s.params := by simp [devicePhases]

@[simp] theorem devicePhases_cycle (s : State) : (devicePhases s).cycle = s.cycle + 1 := by simp [devicePhases]

/-! ### resetAll -/

@[simp] theorem resetAll_inputs (s : State) : (resetAll s).inputs = s.inputs := rfl
@[simp] theorem resetAll_tape (s : State) : (resetAll s).tape = s.tape := rfl
@[simp] theorem resetAll_video (s : State) : (resetAll s).video = s.video := rfl
@[simp] theorem resetAll_audio (s : State) : (resetAll s).audio = s.audio := rfl
@[simp] theorem resetAll_ticks (s : State) : (resetAll s).ticks = s.ticks := rfl
@[simp] theorem resetAll_cycle (s : State) : (resetAll s).cycle = s.cycle := rfl
@[simp] theorem resetAll_status (s : State) : (resetAll s).status = s.status := rfl
@[simp] theorem resetAll_params (s : State) : (resetAll s).params = s.params := rfl

@[simp] theorem resetAll_micro (s : State) : (resetAll s).latches.micro = Micro.boundary := rfl

/-! ### finish -/

@[simp] theorem finish_regs (s : State) : (finish s).regs = s.regs := rfl
@[simp] theorem finish_port (s : State) : (finish s).port = s.port := rfl
@[simp] theorem finish_ram (s : State) : (finish s).ram = s.ram := rfl
@[simp] theorem finish_colour (s : State) : (finish s).colour = s.colour := rfl
@[simp] theorem finish_bus (s : State) : (finish s).bus = s.bus := rfl
@[simp] theorem finish_pins (s : State) : (finish s).pins = s.pins := rfl
@[simp] theorem finish_cia1 (s : State) : (finish s).cia1 = s.cia1 := rfl
@[simp] theorem finish_cia2 (s : State) : (finish s).cia2 = s.cia2 := rfl
@[simp] theorem finish_vic (s : State) : (finish s).vic = s.vic := rfl
@[simp] theorem finish_sid (s : State) : (finish s).sid = s.sid := rfl
@[simp] theorem finish_inputs (s : State) : (finish s).inputs = s.inputs := rfl
@[simp] theorem finish_tape (s : State) : (finish s).tape = s.tape := rfl
@[simp] theorem finish_video (s : State) : (finish s).video = s.video := rfl
@[simp] theorem finish_audio (s : State) : (finish s).audio = s.audio := rfl
@[simp] theorem finish_ticks (s : State) : (finish s).ticks = s.ticks := rfl
@[simp] theorem finish_cycle (s : State) : (finish s).cycle = s.cycle := rfl
@[simp] theorem finish_status (s : State) : (finish s).status = s.status := rfl
@[simp] theorem finish_params (s : State) : (finish s).params = s.params := rfl

@[simp] theorem finish_micro (s : State) : (finish s).latches.micro = Micro.boundary := rfl

/-! ### enter -/

@[simp] theorem enter_regs (q : Seq) (s : State) : (enter q s).regs = s.regs := rfl
@[simp] theorem enter_port (q : Seq) (s : State) : (enter q s).port = s.port := rfl
@[simp] theorem enter_ram (q : Seq) (s : State) : (enter q s).ram = s.ram := rfl
@[simp] theorem enter_colour (q : Seq) (s : State) : (enter q s).colour = s.colour := rfl
@[simp] theorem enter_bus (q : Seq) (s : State) : (enter q s).bus = s.bus := rfl
@[simp] theorem enter_pins (q : Seq) (s : State) : (enter q s).pins = s.pins := rfl
@[simp] theorem enter_cia1 (q : Seq) (s : State) : (enter q s).cia1 = s.cia1 := rfl
@[simp] theorem enter_cia2 (q : Seq) (s : State) : (enter q s).cia2 = s.cia2 := rfl
@[simp] theorem enter_vic (q : Seq) (s : State) : (enter q s).vic = s.vic := rfl
@[simp] theorem enter_sid (q : Seq) (s : State) : (enter q s).sid = s.sid := rfl
@[simp] theorem enter_inputs (q : Seq) (s : State) : (enter q s).inputs = s.inputs := rfl
@[simp] theorem enter_tape (q : Seq) (s : State) : (enter q s).tape = s.tape := rfl
@[simp] theorem enter_video (q : Seq) (s : State) : (enter q s).video = s.video := rfl
@[simp] theorem enter_audio (q : Seq) (s : State) : (enter q s).audio = s.audio := rfl
@[simp] theorem enter_ticks (q : Seq) (s : State) : (enter q s).ticks = s.ticks := rfl
@[simp] theorem enter_cycle (q : Seq) (s : State) : (enter q s).cycle = s.cycle := rfl
@[simp] theorem enter_status (q : Seq) (s : State) : (enter q s).status = s.status := rfl
@[simp] theorem enter_params (q : Seq) (s : State) : (enter q s).params = s.params := rfl

@[simp] theorem enter_nmiEdge (q : Seq) (s : State) : (enter q s).latches.nmiEdge = s.latches.nmiEdge := rfl
@[simp] theorem enter_nmiPrev (q : Seq) (s : State) : (enter q s).latches.nmiPrev = s.latches.nmiPrev := rfl
@[simp] theorem enter_irqPending (q : Seq) (s : State) : (enter q s).latches.irqPending = s.latches.irqPending := rfl
@[simp] theorem enter_takeNmi (q : Seq) (s : State) : (enter q s).latches.takeNmi = s.latches.takeNmi := rfl
@[simp] theorem enter_takeIrq (q : Seq) (s : State) : (enter q s).latches.takeIrq = s.latches.takeIrq := rfl
@[simp] theorem enter_resetPending (q : Seq) (s : State) : (enter q s).latches.resetPending = s.latches.resetPending := rfl
@[simp] theorem enter_stalled (q : Seq) (s : State) : (enter q s).latches.stalled = s.latches.stalled := rfl
@[simp] theorem enter_resetPrev (q : Seq) (s : State) : (enter q s).latches.resetPrev = s.latches.resetPrev := rfl
@[simp] theorem enter_poll1 (q : Seq) (s : State) : (enter q s).latches.poll1 = s.latches.poll1 := rfl
@[simp] theorem enter_poll2 (q : Seq) (s : State) : (enter q s).latches.poll2 = s.latches.poll2 := rfl
@[simp] theorem enter_micro (q : Seq) (s : State) : (enter q s).latches.micro = ⟨q, s.regs, []⟩ := rfl

/-! ### nmiEntry -/

@[simp] theorem nmiEntry_regs (s : State) : (nmiEntry s).regs = s.regs := rfl
@[simp] theorem nmiEntry_port (s : State) : (nmiEntry s).port = s.port := rfl
@[simp] theorem nmiEntry_ram (s : State) : (nmiEntry s).ram = s.ram := rfl
@[simp] theorem nmiEntry_colour (s : State) : (nmiEntry s).colour = s.colour := rfl
@[simp] theorem nmiEntry_bus (s : State) : (nmiEntry s).bus = s.bus := rfl
@[simp] theorem nmiEntry_pins (s : State) : (nmiEntry s).pins = s.pins := rfl
@[simp] theorem nmiEntry_cia1 (s : State) : (nmiEntry s).cia1 = s.cia1 := rfl
@[simp] theorem nmiEntry_cia2 (s : State) : (nmiEntry s).cia2 = s.cia2 := rfl
@[simp] theorem nmiEntry_vic (s : State) : (nmiEntry s).vic = s.vic := rfl
@[simp] theorem nmiEntry_sid (s : State) : (nmiEntry s).sid = s.sid := rfl
@[simp] theorem nmiEntry_inputs (s : State) : (nmiEntry s).inputs = s.inputs := rfl
@[simp] theorem nmiEntry_tape (s : State) : (nmiEntry s).tape = s.tape := rfl
@[simp] theorem nmiEntry_video (s : State) : (nmiEntry s).video = s.video := rfl
@[simp] theorem nmiEntry_audio (s : State) : (nmiEntry s).audio = s.audio := rfl
@[simp] theorem nmiEntry_ticks (s : State) : (nmiEntry s).ticks = s.ticks := rfl
@[simp] theorem nmiEntry_cycle (s : State) : (nmiEntry s).cycle = s.cycle := rfl
@[simp] theorem nmiEntry_status (s : State) : (nmiEntry s).status = s.status := rfl
@[simp] theorem nmiEntry_params (s : State) : (nmiEntry s).params = s.params := rfl

/-! ### resetEntry -/

@[simp] theorem resetEntry_port (s : State) : (resetEntry s).port = s.port := rfl
@[simp] theorem resetEntry_ram (s : State) : (resetEntry s).ram = s.ram := rfl
@[simp] theorem resetEntry_colour (s : State) : (resetEntry s).colour = s.colour := rfl
@[simp] theorem resetEntry_bus (s : State) : (resetEntry s).bus = s.bus := rfl
@[simp] theorem resetEntry_pins (s : State) : (resetEntry s).pins = s.pins := rfl
@[simp] theorem resetEntry_cia1 (s : State) : (resetEntry s).cia1 = s.cia1 := rfl
@[simp] theorem resetEntry_cia2 (s : State) : (resetEntry s).cia2 = s.cia2 := rfl
@[simp] theorem resetEntry_vic (s : State) : (resetEntry s).vic = s.vic := rfl
@[simp] theorem resetEntry_sid (s : State) : (resetEntry s).sid = s.sid := rfl
@[simp] theorem resetEntry_inputs (s : State) : (resetEntry s).inputs = s.inputs := rfl
@[simp] theorem resetEntry_tape (s : State) : (resetEntry s).tape = s.tape := rfl
@[simp] theorem resetEntry_video (s : State) : (resetEntry s).video = s.video := rfl
@[simp] theorem resetEntry_audio (s : State) : (resetEntry s).audio = s.audio := rfl
@[simp] theorem resetEntry_ticks (s : State) : (resetEntry s).ticks = s.ticks := rfl
@[simp] theorem resetEntry_cycle (s : State) : (resetEntry s).cycle = s.cycle := rfl
@[simp] theorem resetEntry_status (s : State) : (resetEntry s).status = s.status := rfl
@[simp] theorem resetEntry_params (s : State) : (resetEntry s).params = s.params := rfl

/-! ### ramWrite -/

@[simp] theorem ramWrite_regs (s : State) (a : Word) (v : Byte) : (ramWrite s a v).regs = s.regs := rfl
@[simp] theorem ramWrite_latches (s : State) (a : Word) (v : Byte) : (ramWrite s a v).latches = s.latches := rfl
@[simp] theorem ramWrite_port (s : State) (a : Word) (v : Byte) : (ramWrite s a v).port = s.port := rfl
@[simp] theorem ramWrite_colour (s : State) (a : Word) (v : Byte) : (ramWrite s a v).colour = s.colour := rfl
@[simp] theorem ramWrite_bus (s : State) (a : Word) (v : Byte) : (ramWrite s a v).bus = s.bus := rfl
@[simp] theorem ramWrite_pins (s : State) (a : Word) (v : Byte) : (ramWrite s a v).pins = s.pins := rfl
@[simp] theorem ramWrite_cia1 (s : State) (a : Word) (v : Byte) : (ramWrite s a v).cia1 = s.cia1 := rfl
@[simp] theorem ramWrite_cia2 (s : State) (a : Word) (v : Byte) : (ramWrite s a v).cia2 = s.cia2 := rfl
@[simp] theorem ramWrite_vic (s : State) (a : Word) (v : Byte) : (ramWrite s a v).vic = s.vic := rfl
@[simp] theorem ramWrite_sid (s : State) (a : Word) (v : Byte) : (ramWrite s a v).sid = s.sid := rfl
@[simp] theorem ramWrite_inputs (s : State) (a : Word) (v : Byte) : (ramWrite s a v).inputs = s.inputs := rfl
@[simp] theorem ramWrite_tape (s : State) (a : Word) (v : Byte) : (ramWrite s a v).tape = s.tape := rfl
@[simp] theorem ramWrite_video (s : State) (a : Word) (v : Byte) : (ramWrite s a v).video = s.video := rfl
@[simp] theorem ramWrite_audio (s : State) (a : Word) (v : Byte) : (ramWrite s a v).audio = s.audio := rfl
@[simp] theorem ramWrite_ticks (s : State) (a : Word) (v : Byte) : (ramWrite s a v).ticks = s.ticks := rfl
@[simp] theorem ramWrite_cycle (s : State) (a : Word) (v : Byte) : (ramWrite s a v).cycle = s.cycle := rfl
@[simp] theorem ramWrite_status (s : State) (a : Word) (v : Byte) : (ramWrite s a v).status = s.status := rfl
@[simp] theorem ramWrite_params (s : State) (a : Word) (v : Byte) : (ramWrite s a v).params = s.params := rfl

/-! ### ioReadEffect -/

@[simp] theorem ioReadEffect_regs (s : State) (t : IoTarget) : (ioReadEffect s t).regs = s.regs := by cases t <;> rfl
@[simp] theorem ioReadEffect_latches (s : State) (t : IoTarget) : (ioReadEffect s t).latches = s.latches := by cases t <;> rfl
@[simp] theorem ioReadEffect_port (s : State) (t : IoTarget) : (ioReadEffect s t).port = s.port := by cases t <;> rfl
@[simp] theorem ioReadEffect_ram (s : State) (t : IoTarget) : (ioReadEffect s t).ram = s.ram := by cases t <;> rfl
@[simp] theorem ioReadEffect_colour (s : State) (t : IoTarget) : (ioReadEffect s t).colour = s.colour := by cases t <;> rfl
@[simp] theorem ioReadEffect_bus (s : State) (t : IoTarget) : (ioReadEffect s t).bus = s.bus := by cases t <;> rfl
@[simp] theorem ioReadEffect_sid (s : State) (t : IoTarget) : (ioReadEffect s t).sid = s.sid := by cases t <;> rfl
@[simp] theorem ioReadEffect_inputs (s : State) (t : IoTarget) : (ioReadEffect s t).inputs = s.inputs := by cases t <;> rfl
@[simp] theorem ioReadEffect_tape (s : State) (t : IoTarget) : (ioReadEffect s t).tape = s.tape := by cases t <;> rfl
@[simp] theorem ioReadEffect_video (s : State) (t : IoTarget) : (ioReadEffect s t).video = s.video := by cases t <;> rfl
@[simp] theorem ioReadEffect_audio (s : State) (t : IoTarget) : (ioReadEffect s t).audio = s.audio := by cases t <;> rfl
@[simp] theorem ioReadEffect_ticks (s : State) (t : IoTarget) : (ioReadEffect s t).ticks = s.ticks := by cases t <;> rfl
@[simp] theorem ioReadEffect_cycle (s : State) (t : IoTarget) : (ioReadEffect s t).cycle = s.cycle := by cases t <;> rfl
@[simp] theorem ioReadEffect_status (s : State) (t : IoTarget) : (ioReadEffect s t).status = s.status := by cases t <;> rfl
@[simp] theorem ioReadEffect_params (s : State) (t : IoTarget) : (ioReadEffect s t).params = s.params := by cases t <;> rfl

/-! ### ioWrite -/

@[simp] theorem ioWrite_regs (s : State) (t : IoTarget) (v : Byte) : (ioWrite s t v).regs = s.regs := by cases t <;> rfl
@[simp] theorem ioWrite_latches (s : State) (t : IoTarget) (v : Byte) : (ioWrite s t v).latches = s.latches := by cases t <;> rfl
@[simp] theorem ioWrite_port (s : State) (t : IoTarget) (v : Byte) : (ioWrite s t v).port = s.port := by cases t <;> rfl
@[simp] theorem ioWrite_ram (s : State) (t : IoTarget) (v : Byte) : (ioWrite s t v).ram = s.ram := by cases t <;> rfl
@[simp] theorem ioWrite_bus (s : State) (t : IoTarget) (v : Byte) : (ioWrite s t v).bus = s.bus := by cases t <;> rfl
@[simp] theorem ioWrite_inputs (s : State) (t : IoTarget) (v : Byte) : (ioWrite s t v).inputs = s.inputs := by cases t <;> rfl
@[simp] theorem ioWrite_tape (s : State) (t : IoTarget) (v : Byte) : (ioWrite s t v).tape = s.tape := by cases t <;> rfl
@[simp] theorem ioWrite_video (s : State) (t : IoTarget) (v : Byte) : (ioWrite s t v).video = s.video := by cases t <;> rfl
@[simp] theorem ioWrite_audio (s : State) (t : IoTarget) (v : Byte) : (ioWrite s t v).audio = s.audio := by cases t <;> rfl
@[simp] theorem ioWrite_ticks (s : State) (t : IoTarget) (v : Byte) : (ioWrite s t v).ticks = s.ticks := by cases t <;> rfl
@[simp] theorem ioWrite_cycle (s : State) (t : IoTarget) (v : Byte) : (ioWrite s t v).cycle = s.cycle := by cases t <;> rfl
@[simp] theorem ioWrite_status (s : State) (t : IoTarget) (v : Byte) : (ioWrite s t v).status = s.status := by cases t <;> rfl
@[simp] theorem ioWrite_params (s : State) (t : IoTarget) (v : Byte) : (ioWrite s t v).params = s.params := by cases t <;> rfl

/-! ### readEffect -/

@[simp] theorem readEffect_regs (s : State) (a : Word) : (readEffect s a).regs = s.regs := by
  unfold readEffect; split
  · rfl
  · split <;> first | rfl | simp
@[simp] theorem readEffect_latches (s : State) (a : Word) : (readEffect s a).latches = s.latches := by
  unfold readEffect; split
  · rfl
  · split <;> first | rfl | simp
@[simp] theorem readEffect_port (s : State) (a : Word) : (readEffect s a).port = s.port := by
  unfold readEffect; split
  · rfl
  · split <;> first | rfl | simp
@[simp] theorem readEffect_ram (s : State) (a : Word) : (readEffect s a).ram = s.ram := by
  unfold readEffect; split
  · rfl
  · split <;> first | rfl | simp
@[simp] theorem readEffect_colour (s : State) (a : Word) : (readEffect s a).colour = s.colour := by
  unfold readEffect; split
  · rfl
  · split <;> first | rfl | simp
@[simp] theorem readEffect_bus (s : State) (a : Word) : (readEffect s a).bus = s.bus := by
  unfold readEffect; split
  · rfl
  · split <;> first | rfl | simp
@[simp] theorem readEffect_sid (s : State) (a : Word) : (readEffect s a).sid = s.sid := by
  unfold readEffect; split
  · rfl
  · split <;> first | rfl | simp
@[simp] theorem readEffect_inputs (s : State) (a : Word) : (readEffect s a).inputs = s.inputs := by
  unfold readEffect; split
  · rfl
  · split <;> first | rfl | simp
@[simp] theorem readEffect_tape (s : State) (a : Word) : (readEffect s a).tape = s.tape := by
  unfold readEffect; split
  · rfl
  · split <;> first | rfl | simp
@[simp] theorem readEffect_video (s : State) (a : Word) : (readEffect s a).video = s.video := by
  unfold readEffect; split
  · rfl
  · split <;> first | rfl | simp
@[simp] theorem readEffect_audio (s : State) (a : Word) : (readEffect s a).audio = s.audio := by
  unfold readEffect; split
  · rfl
  · split <;> first | rfl | simp
@[simp] theorem readEffect_ticks (s : State) (a : Word) : (readEffect s a).ticks = s.ticks := by
  unfold readEffect; split
  · rfl
  · split <;> first | rfl | simp
@[simp] theorem readEffect_cycle (s : State) (a : Word) : (readEffect s a).cycle = s.cycle := by
  unfold readEffect; split
  · rfl
  · split <;> first | rfl | simp
@[simp] theorem readEffect_status (s : State) (a : Word) : (readEffect s a).status = s.status := by
  unfold readEffect; split
  · rfl
  · split <;> first | rfl | simp
@[simp] theorem readEffect_params (s : State) (a : Word) : (readEffect s a).params = s.params := by
  unfold readEffect; split
  · rfl
  · split <;> first | rfl | simp

/-! ### writeEffect -/

@[simp] theorem writeEffect_regs (s : State) (a : Word) (v : Byte) : (writeEffect s a v).regs = s.regs := by
  unfold writeEffect; (repeat' split) <;> first | rfl | simp
@[simp] theorem writeEffect_latches (s : State) (a : Word) (v : Byte) : (writeEffect s a v).latches = s.latches := by
  unfold writeEffect; (repeat' split) <;> first | rfl | simp
@[simp] theorem writeEffect_bus (s : State) (a : Word) (v : Byte) : (writeEffect s a v).bus = s.bus := by
  unfold writeEffect; (repeat' split) <;> first | rfl | simp
@[simp] theorem writeEffect_inputs (s : State) (a : Word) (v : Byte) : (writeEffect s a v).inputs = s.inputs := by
  unfold writeEffect; (repeat' split) <;> first | rfl | simp
@[simp] theorem writeEffect_tape (s : State) (a : Word) (v : Byte) : (writeEffect s a v).tape = s.tape := by
  unfold writeEffect; (repeat' split) <;> first | rfl | simp
@[simp] theorem writeEffect_video (s : State) (a : Word) (v : Byte) : (writeEffect s a v).video = s.video := by
  unfold writeEffect; (repeat' split) <;> first | rfl | simp
@[simp] theorem writeEffect_audio (s : State) (a : Word) (v : Byte) : (writeEffect s a v).audio = s.audio := by
  unfold writeEffect; (repeat' split) <;> first | rfl | simp
@[simp] theorem writeEffect_ticks (s : State) (a : Word) (v : Byte) : (writeEffect s a v).ticks = s.ticks := by
  unfold writeEffect; (repeat' split) <;> first | rfl | simp
@[simp] theorem writeEffect_cycle (s : State) (a : Word) (v : Byte) : (writeEffect s a v).cycle = s.cycle := by
  unfold writeEffect; (repeat' split) <;> first | rfl | simp
@[simp] theorem writeEffect_status (s : State) (a : Word) (v : Byte) : (writeEffect s a v).status = s.status := by
  unfold writeEffect; (repeat' split) <;> first | rfl | simp
@[simp] theorem writeEffect_params (s : State) (a : Word) (v : Byte) : (writeEffect s a v).params = s.params := by
  unfold writeEffect; (repeat' split) <;> first | rfl | simp

/-! ### memRead -/

@[simp] theorem memRead_regs (a : Word) (s : State) : ((memRead a s).2).regs = s.regs := by simp [memRead]
@[simp] theorem memRead_latches (a : Word) (s : State) : ((memRead a s).2).latches = s.latches := by simp [memRead]
@[simp] theorem memRead_port (a : Word) (s : State) : ((memRead a s).2).port = s.port := by simp [memRead]
@[simp] theorem memRead_ram (a : Word) (s : State) : ((memRead a s).2).ram = s.ram := by simp [memRead]
@[simp] theorem memRead_colour (a : Word) (s : State) : ((memRead a s).2).colour = s.colour := by simp [memRead]
@[simp] theorem memRead_sid (a : Word) (s : State) : ((memRead a s).2).sid = s.sid := by simp [memRead]
@[simp] theorem memRead_inputs (a : Word) (s : State) : ((memRead a s).2).inputs = s.inputs := by simp [memRead]
@[simp] theorem memRead_tape (a : Word) (s : State) : ((memRead a s).2).tape = s.tape := by simp [memRead]
@[simp] theorem memRead_video (a : Word) (s : State) : ((memRead a s).2).video = s.video := by simp [memRead]
@[simp] theorem memRead_audio (a : Word) (s : State) : ((memRead a s).2).audio = s.audio := by simp [memRead]
@[simp] theorem memRead_ticks (a : Word) (s : State) : ((memRead a s).2).ticks = s.ticks := by simp [memRead]
@[simp] theorem memRead_cycle (a : Word) (s : State) : ((memRead a s).2).cycle = s.cycle := by simp [memRead]
@[simp] theorem memRead_status (a : Word) (s : State) : ((memRead a s).2).status = s.status := by simp [memRead]
@[simp] theorem memRead_params (a : Word) (s : State) : ((memRead a s).2).params = s.params := by simp [memRead]

/-! ### memWrite -/

@[simp] theorem memWrite_regs (a : Word) (v : Byte) (s : State) : (memWrite a v s).regs = s.regs := by simp [memWrite]
@[simp] theorem memWrite_latches (a : Word) (v : Byte) (s : State) : (memWrite a v s).latches = s.latches := by simp [memWrite]
@[simp] theorem memWrite_inputs (a : Word) (v : Byte) (s : State) : (memWrite a v s).inputs = s.inputs := by simp [memWrite]
@[simp] theorem memWrite_tape (a : Word) (v : Byte) (s : State) : (memWrite a v s).tape = s.tape := by simp [memWrite]
@[simp] theorem memWrite_video (a : Word) (v : Byte) (s : State) : (memWrite a v s).video = s.video := by simp [memWrite]
@[simp] theorem memWrite_audio (a : Word) (v : Byte) (s : State) : (memWrite a v s).audio = s.audio := by simp [memWrite]
@[simp] theorem memWrite_ticks (a : Word) (v : Byte) (s : State) : (memWrite a v s).ticks = s.ticks := by simp [memWrite]
@[simp] theorem memWrite_cycle (a : Word) (v : Byte) (s : State) : (memWrite a v s).cycle = s.cycle := by simp [memWrite]
@[simp] theorem memWrite_status (a : Word) (v : Byte) (s : State) : (memWrite a v s).status = s.status := by simp [memWrite]
@[simp] theorem memWrite_params (a : Word) (v : Byte) (s : State) : (memWrite a v s).params = s.params := by simp [memWrite]

end Sys2Proof.Machine
end

