-- ==== Sys2Proof/Laws/Devices.lean ====
section
/-! SUPPORT. A tick of a device leaves the registers alone that only a CPU write changes, one lemma per stage;
and the X coordinates of NTSC. -/

namespace Sys2Proof.Machine

/-! ### The VIC -/

theorem Vic.settings_sprites (v : Vic) (f : Nat → Sprite → Sprite) (h : ∀ n s, (f n s).settings = s.settings) :
    ({ v with sprites := v.sprites.mapIdx f } : Vic).settings = v.settings := by
  simp [Vic.settings, Oct.mapIdx, h]

@[simp] theorem Sprite.startDma_settings (s : Sprite) (y : Nat) (me ye : Bool) :
    (s.startDma y me ye).settings = s.settings := by
  unfold Sprite.startDma; split <;> rfl

@[simp] theorem Sprite.rules_settings (s : Sprite) (y c : Nat) (me ye : Bool) :
    (s.rules y c me ye).settings = s.settings := by
  unfold Sprite.rules
  simp only []
  repeat' first | rfl | rw [Sprite.startDma_settings] | split

@[simp] theorem Sprite.sAccess_settings (s : Sprite) (w : VicView) (lo : Nat) :
    (s.sAccess w lo).settings = s.settings := rfl

@[simp] theorem Sprite.firstPhase_settings (s : Sprite) (w : VicView) (len c slot n vm : Nat) :
    (s.firstPhase w len c slot n vm).settings = s.settings := by
  unfold Sprite.firstPhase; split
  · rfl
  · split <;> simp

@[simp] theorem Sprite.secondPhase_settings (s : Sprite) (w : VicView) (len c slot : Nat) :
    (s.secondPhase w len c slot).settings = s.settings := by
  unfold Sprite.secondPhase; split
  · simp
  · split <;> simp

@[simp] theorem Sprite.start_settings (s : Sprite) (X sx : Nat) : (s.start X sx).settings = s.settings := by
  unfold Sprite.start; split <;> rfl

@[simp] theorem Sprite.pixel_settings (s : Sprite) (v : Vic) (n X : Nat) : (s.pixel v n X).1.settings = s.settings := by
  unfold Sprite.pixel
  simp only []
  split
  · exact Sprite.start_settings _ _ _
  · exact Sprite.start_settings _ _ _

@[simp] theorem Vic.latchIrq_settings (v : Vic) (i : Nat) : (v.latchIrq i).settings = v.settings := rfl

@[simp] theorem Vic.startFrame_settings (v : Vic) : v.startFrame.settings = v.settings := by
  unfold Vic.startFrame; split <;> rfl

@[simp] theorem Vic.rasterCompare_settings (v : Vic) : v.rasterCompare.settings = v.settings := by
  unfold Vic.rasterCompare; split <;> rfl

@[simp] theorem Vic.latchDen_settings (v : Vic) : v.latchDen.settings = v.settings := by
  unfold Vic.latchDen; split <;> rfl

@[simp] theorem Vic.display_settings (v : Vic) : v.display.settings = v.settings := by
  unfold Vic.display; split <;> rfl

@[simp] theorem Vic.spriteRules_settings (v : Vic) : v.spriteRules.settings = v.settings :=
  Vic.settings_sprites v _ fun _ _ => Sprite.rules_settings _ _ _ _ _

@[simp] theorem Vic.counters_settings (v : Vic) : v.counters.settings = v.settings := by
  unfold Vic.counters
  simp only []
  repeat' first | rfl | split

@[simp] theorem Vic.gAccess_settings (v : Vic) (w : VicView) : (v.gAccess w).settings = v.settings := by
  unfold Vic.gAccess; split
  · split <;> rfl
  · rfl

@[simp] theorem Vic.cAccess_settings (v : Vic) (w : VicView) : (v.cAccess w).settings = v.settings := by
  unfold Vic.cAccess; split <;> rfl

@[simp] theorem Vic.accesses_settings (v : Vic) (w : VicView) : (v.accesses w).settings = v.settings := by
  unfold Vic.accesses
  simp only []
  rw [Vic.settings_sprites _ _ fun _ _ => Sprite.secondPhase_settings _ _ _ _ _, Vic.cAccess_settings,
    Vic.settings_sprites _ _ fun _ _ => Sprite.firstPhase_settings _ _ _ _ _ _ _, Vic.gAccess_settings]

@[simp] theorem Vic.fetchSteps_settings (v : Vic) (w : VicView) : (v.fetchSteps w).settings = v.settings := by
  simp [Vic.fetchSteps]

@[simp] theorem Vic.stepBa_settings (v : Vic) (p : Params) : (v.stepBa p).settings = v.settings := rfl

@[simp] theorem Vic.verticalBorder_settings (v : Vic) : v.verticalBorder.settings = v.settings := by
  unfold Vic.verticalBorder; split
  · rfl
  · split <;> rfl

@[simp] theorem Vic.border_settings (v : Vic) (X : Nat) : (v.border X).settings = v.settings := by
  unfold Vic.border
  by_cases h : X = v.rightX
  · simp only [h, if_true]
    split
    · split
      · simp; rfl
      · exact (Vic.verticalBorder_settings _)
    · rfl
  · simp only [h, if_false]
    split
    · split
      · simp
      · exact (Vic.verticalBorder_settings _)
    · rfl

@[simp] theorem Vic.collide_settings (v : Vic) (m : Byte) (fg : Bool) : (v.collide m fg).settings = v.settings := by
  unfold Vic.collide
  simp only []
  repeat' first | rfl | split

@[simp] theorem Vic.pixel_settings (v : Vic) (X : Nat) : (v.pixel X).1.settings = v.settings := by
  unfold Vic.pixel
  simp only []
  split
  · simp only [Vic.collide_settings]
    have h := Vic.settings_sprites (v.border X) (fun n s => (s.pixel (v.border X) n X).1)
      fun _ _ => Sprite.pixel_settings _ _ _ _
    rw [Vic.border_settings] at h
    exact h
  · simp

theorem Vic.pixelRow_settings (p : Params) (n px : Nat) (v : Vic) (cell : BitVec 32) :
    (Vic.pixelRow p n px v cell).1.settings = v.settings := by
  induction n generalizing px v cell with
  | zero => rfl
  | succ n ih => simp only [Vic.pixelRow]; rw [ih, Vic.pixel_settings]

@[simp] theorem Vic.pixels_settings (v : Vic) (p : Params) : (v.pixels p).1.settings = v.settings := by
  unfold Vic.pixels
  rw [Vic.pixelRow_settings]
  split <;> simp

@[simp] theorem Vic.lightPen_settings (v : Vic) (p : Params) (l : Bool) : (v.lightPen p l).settings = v.settings := by
  unfold Vic.lightPen
  simp only []
  split <;> rfl

@[simp] theorem Vic.advance_settings (v : Vic) (p : Params) : (v.advance p).1.settings = v.settings := by
  unfold Vic.advance; split
  · rfl
  · split <;> rfl

/-- A VIC tick leaves every register alone that only a CPU write changes. -/
@[simp] theorem Vic.tick_settings (v : Vic) (w : VicView) : (v.tick w).vic.settings = v.settings := by
  simp [Vic.tick]

@[simp] theorem Vic.readEffect_settings (v : Vic) (r : Nat) : (v.readEffect r).settings = v.settings := by
  unfold Vic.readEffect; split <;> rfl

/-! ### The CIAs -/

@[simp] theorem Cia.event_settings (c : Cia) (i : Nat) (b : Bool) : (c.event i b).settings = c.settings := by
  unfold Cia.event; split <;> rfl

theorem Timer.tick_latch (t : Timer) (a b d : Bool) : (t.tick a b d).1.latch = t.latch := by
  unfold Timer.tick; repeat' split
  all_goals rfl

@[simp] theorem Timer.output_latch (t : Timer) (a b : Bool) : (t.output a b).latch = t.latch := by
  unfold Timer.output; split <;> rfl

theorem putBit0_high : ∀ v : Byte, putBit v 0 false &&& 0xFE = v &&& 0xFE := by decide

theorem stopOneShot_high (v : Byte) (u : Bool) : stopOneShot v u &&& 0xFE = v &&& 0xFE := by
  unfold stopOneShot
  split
  · exact putBit0_high v
  · rfl

@[simp] theorem Cia.tickA_settings (c : Cia) (e : Bool) : (c.tickA e).1.settings = c.settings := by
  unfold Cia.tickA
  simp only []
  rw [Cia.event_settings]
  simp only [Cia.settings, Timer.tick_latch, stopOneShot_high]

@[simp] theorem Cia.tickB_settings (c : Cia) (e n u : Bool) : (c.tickB e n u).1.settings = c.settings := by
  unfold Cia.tickB
  simp only []
  rw [Cia.event_settings]
  simp only [Cia.settings, Timer.tick_latch, stopOneShot_high]

@[simp] theorem Cia.serialOut_settings (c : Cia) : c.serialOut.settings = c.settings := by
  unfold Cia.serialOut
  simp only []
  repeat' first | rfl | rw [Cia.event_settings] | split

@[simp] theorem Cia.serialIn_settings (c : Cia) (sp : Bool) : (c.serialIn sp).settings = c.settings := by
  unfold Cia.serialIn
  simp only []
  split
  · simp only [Cia.event_settings]; rfl
  · rfl

@[simp] theorem Cia.serialTick_settings (c : Cia) (u e sp : Bool) : (c.serialTick u e sp).settings = c.settings := by
  unfold Cia.serialTick
  repeat' split
  all_goals simp

@[simp] theorem Cia.todTick_settings (c : Cia) (p : Bool) : (c.todTick p).settings = c.settings := by
  unfold Cia.todTick Cia.alarmCheck
  repeat' first | rfl | rw [Cia.event_settings] | split

/-- A CIA tick leaves every register alone that only a CPU write changes. -/
@[simp] theorem Cia.tick_settings (c : Cia) (p : CiaPins) : (c.tick p).settings = c.settings := by
  have hA := Cia.tickA_settings c (!c.cntPrev && p.cnt)
  have hB := Cia.tickB_settings (c.tickA (!c.cntPrev && p.cnt)).1 (!c.cntPrev && p.cnt) p.cnt
    (c.tickA (!c.cntPrev && p.cnt)).2
  have e : ∀ (d : Cia) (t u : Timer), t.latch = d.ta.latch → u.latch = d.tb.latch →
      ({ d with ta := t, tb := u } : Cia).settings = d.settings := by
    intro d t u h1 h2; simp [Cia.settings, h1, h2]
  have f : ∀ (d : Cia) (a b : Bool), ({ d with cntPrev := a, flagPrev := b } : Cia).settings = d.settings :=
    fun _ _ _ => rfl
  simp only [Cia.tick]
  rw [f, Cia.event_settings, Cia.todTick_settings, Cia.serialTick_settings,
    e _ _ _ (Timer.output_latch _ _ _) (Timer.output_latch _ _ _), hB, hA]

@[simp] theorem Cia.readEffect_settings (c : Cia) (r : Nat) : (c.readEffect r).settings = c.settings := by
  unfold Cia.readEffect; split <;> rfl

/-! ### The SID -/

@[simp] theorem Voice.edges_settings (v : Voice) : v.edges.settings = v.settings := by
  unfold Voice.edges
  simp only []
  repeat' first | rfl | split

@[simp] theorem Voice.accumulate_settings (v : Voice) : v.accumulate.settings = v.settings := by
  unfold Voice.accumulate
  repeat' first | rfl | split

@[simp] theorem Voice.sync_settings (v : Voice) (b : Bool) : (v.sync b).settings = v.settings := by
  unfold Voice.sync
  repeat' first | rfl | split

@[simp] theorem Voice.noise_settings (v : Voice) : v.noise.settings = v.settings := rfl

@[simp] theorem Voice.setEnv_settings (v : Voice) (e : Byte) : (v.setEnv e).settings = v.settings := rfl

@[simp] theorem Voice.envStep_settings (v : Voice) : v.envStep.settings = v.settings := by
  unfold Voice.envStep
  simp only []
  repeat' first | rfl | split

@[simp] theorem Voice.envelope_settings (v : Voice) (p : Params) : (v.envelope p).settings = v.settings := by
  unfold Voice.envelope
  split
  · rw [Voice.envStep_settings]; rfl
  · rfl

theorem Voice.wave_settings (v : Voice) (w : BitVec 12) : ({ v with wave := w } : Voice).settings = v.settings := rfl

/-- A SID tick leaves every register alone. -/
@[simp] theorem Sid.tick_settings (s : Sid) (p : Params) : (s.tick p).settings = s.settings := by
  simp [Sid.tick, Sid.filter, Sid.voices, Sid.settings, Voice.wave_settings]

/-! ### Writes: the registers after a write depend on the registers before it alone -/

theorem Vic.settings_setSprite (v : Vic) (n : Nat) (f : Sprite → Sprite)
    (hf : ∀ s, (f s).settings = (f s.settings).settings) :
    ({ v with sprites := v.sprites.set n (f (v.sprites.get n)) } : Vic).settings =
      ({ v.settings with sprites := v.settings.sprites.set n (f (v.settings.sprites.get n)) } : Vic).settings := by
  have i : ∀ s : Sprite, s.settings.settings = s.settings := fun _ => rfl
  match n with
  | 0 => simp [Vic.settings, Oct.set, Oct.mapIdx, Oct.get, ← hf, i]
  | 1 => simp [Vic.settings, Oct.set, Oct.mapIdx, Oct.get, ← hf, i]
  | 2 => simp [Vic.settings, Oct.set, Oct.mapIdx, Oct.get, ← hf, i]
  | 3 => simp [Vic.settings, Oct.set, Oct.mapIdx, Oct.get, ← hf, i]
  | 4 => simp [Vic.settings, Oct.set, Oct.mapIdx, Oct.get, ← hf, i]
  | 5 => simp [Vic.settings, Oct.set, Oct.mapIdx, Oct.get, ← hf, i]
  | 6 => simp [Vic.settings, Oct.set, Oct.mapIdx, Oct.get, ← hf, i]
  | n + 7 => simp [Vic.settings, Oct.set, Oct.mapIdx, Oct.get, ← hf, i]

theorem Vic.settings_idem (v : Vic) : v.settings.settings = v.settings := rfl

theorem Vic.writeColour_settings (v : Vic) (r : Nat) (b : Nibble) :
    (v.writeColour r b).settings = (v.settings.writeColour r b).settings := by
  unfold Vic.writeColour
  split
  all_goals first
    | rfl
    | exact Vic.settings_setSprite v _ (fun s => { s with colour := b }) fun _ => rfl

/-- The VIC registers after a write. -/
theorem Vic.write_settings (v : Vic) (r : Nat) (b : Byte) :
    (v.write r b).settings = (v.settings.write r b).settings := by
  unfold Vic.write
  split
  · by_cases h : r % 2 = 0
    · simp only [h, if_true]
      exact Vic.settings_setSprite v _ (fun s => { s with posX := b }) fun _ => rfl
    · simp only [h, if_false]
      exact Vic.settings_setSprite v _ (fun s => { s with posY := b }) fun _ => rfl
  · split
    · split
      · exact Vic.writeColour_settings v r _
      · rfl
    · split <;> rfl

theorem and_fe_bit7 : ∀ b : Byte, bit (b &&& 0xFE) 7 = bit b 7 := by decide

theorem and_fe_fe (b : Byte) : b &&& 0xFE &&& 0xFE = b &&& 0xFE := by
  rw [BitVec.and_assoc]; rfl

theorem Cia.settings_idem (c : Cia) : c.settings.settings = c.settings := by
  simp only [Cia.settings, and_fe_fe]

theorem Cia.todWrite_settings (c : Cia) (k : Nat) (v : Byte) :
    (c.todWrite k v).settings = (c.settings.todWrite k v).settings := by
  unfold Cia.todWrite Cia.alarmCheck
  simp only [Cia.event_settings]
  by_cases h : bit c.crb 7 = true
  · have h' : bit c.settings.crb 7 = true := by simp only [Cia.settings, and_fe_bit7]; exact h
    rw [if_pos h, if_pos h']
    simp only [Cia.settings, and_fe_fe]
  · have h' : ¬ bit c.settings.crb 7 = true := by simp only [Cia.settings, and_fe_bit7]; exact h
    rw [if_neg h, if_neg h']
    split <;> simp only [Cia.settings, and_fe_fe]

/-- The CIA registers after a write. -/
theorem Cia.write_settings (c : Cia) (r : Nat) (v : Byte) :
    (c.write r v).settings = (c.settings.write r v).settings := by
  have w : ∀ (t : Timer) (a : Bool), (t.writeHi a v).latch = word v (loByte t.latch) := fun _ _ => rfl
  have k : ∀ (t : Timer) (o : Byte), (t.control o v).latch = t.latch := by
    intro t o; unfold Timer.control; simp only []; repeat' first | rfl | split
  unfold Cia.write
  split
  all_goals first
    | exact Cia.todWrite_settings c _ v
    | simp only [Cia.settings, and_fe_fe, w, k, Timer.writeLo]

theorem Voice.write_settings (v : Voice) (k : Nat) (b : Byte) :
    (v.write k b).settings = (v.settings.write k b).settings := by
  unfold Voice.write; split <;> rfl

theorem Voice.settings_idem (v : Voice) : v.settings.settings = v.settings := rfl

/-- The SID registers after a write. -/
theorem Sid.write_settings (s : Sid) (r : Nat) (b : Byte) :
    (s.write r b).settings = (s.settings.write r b).settings := by
  unfold Sid.write
  by_cases h1 : r < 7
  · simp only [if_pos h1, Sid.settings, Voice.settings_idem]; rw [Voice.write_settings]
  · by_cases h2 : r < 14
    · simp only [if_neg h1, if_pos h2, Sid.settings, Voice.settings_idem]; rw [Voice.write_settings]
    · by_cases h3 : r < 21
      · simp only [if_neg h1, if_neg h2, if_pos h3, Sid.settings, Voice.settings_idem]; rw [Voice.write_settings]
      · simp only [if_neg h1, if_neg h2, if_neg h3]
        split <;> rfl

/-! ### The X coordinates of NTSC (R700) -/

theorem ntscX_cases (t : Option NtscXpos) :
    (∃ l, xposOk l = true ∧ ∀ c px, ntscX t c px = l.getD (8 * (c - 1) + px) 0) ∨ ntscX t = ntscLinearX := by
  cases t with
  | some t => exact Or.inl ⟨t.table, t.ok, fun _ _ => rfl⟩
  | none =>
    by_cases h : xposOk Config.ntscXpos = true
    · exact Or.inl ⟨Config.ntscXpos, h, fun c px => by simp [ntscX, h]⟩
    · exact Or.inr (funext fun c => funext fun px => by simp [ntscX, h])

theorem xposOk_spec {l : List Nat} (h : xposOk l = true) :
    l.length = 520 ∧ l.Nodup ∧ ∀ j, j < 40 → l[8 * (15 + j) + 4]? = some (0x18 + 8 * j) := by
  simpa [xposOk, and_assoc] using h

/-- The X coordinates that R700 fixes on NTSC. -/
theorem ntscX_fixed (t : Option NtscXpos) {j : Nat} (hj : j < 40) : ntscX t (16 + j) 4 = 0x18 + 8 * j := by
  rcases ntscX_cases t with ⟨l, h, e⟩ | e
  · have e1 : 8 * (16 + j - 1) + 4 = 8 * (15 + j) + 4 := by omega
    rw [e, e1, List.getD_eq_getElem?_getD, (xposOk_spec h).2.2 j hj]
    rfl
  · rw [e]
    unfold ntscLinearX
    omega

/-- Each X occurs at most once in an NTSC line (R700). -/
theorem ntscX_injective (t : Option NtscXpos) {c c' px px' : Nat} (hc : 1 ≤ c) (hc' : 1 ≤ c') (h1 : c ≤ 65)
    (h1' : c' ≤ 65) (hp : px < 8) (hp' : px' < 8) (h : ntscX t c px = ntscX t c' px') : c = c' ∧ px = px' := by
  rcases ntscX_cases t with ⟨l, ok, e⟩ | e
  · obtain ⟨hl, hn, _⟩ := xposOk_spec ok
    rw [e, e, List.getD_eq_getElem _ _ (by omega), List.getD_eq_getElem _ _ (by omega)] at h
    have := (List.Nodup.getElem_inj_iff hn).mp h
    omega
  · rw [e] at h
    unfold ntscLinearX at h
    omega
end Sys2Proof.Machine
end

