-- ==== Sys2Proof/Laws/Memory.lean ====
section
/-! SUPPORT. The laws of the byte store: read after write, and the canonical form, which every operation keeps. -/

namespace Sys2Proof.Machine

theorem Memory.wfFrom_cons {size lo k : Nat} {v : Byte} {m : Memory} :
    Memory.wfFrom size lo ((k, v) :: m) = true ↔
      lo ≤ k ∧ k < size ∧ v ≠ memDefault ∧ Memory.wfFrom size (k + 1) m = true := by
  simp [Memory.wfFrom, and_assoc]

theorem Memory.wfFrom_mono {size lo lo' : Nat} {m : Memory} (h : lo' ≤ lo)
    (hm : Memory.wfFrom size lo m = true) : Memory.wfFrom size lo' m = true := by
  match m with
  | [] => rfl
  | (k, v) :: rest =>
    rw [Memory.wfFrom_cons] at hm ⊢
    exact ⟨by omega, hm.2⟩

/-- Below its first possible key a store reads as the default. -/
theorem Memory.read_below {size lo x : Nat} {m : Memory} (hm : Memory.wfFrom size lo m = true) (h : x < lo) :
    Memory.read m x = memDefault := by
  match m with
  | [] => rfl
  | (k, v) :: rest =>
    rw [Memory.wfFrom_cons] at hm
    simp only [Memory.read]
    rw [if_neg (by omega), if_pos (by omega)]

theorem Memory.read_keep {size lo a x : Nat} {v : Byte} {m : Memory} (hm : Memory.wfFrom size lo m = true)
    (h : a < lo) : Memory.read (Memory.keep a v m) x = if x = a then v else Memory.read m x := by
  unfold Memory.keep
  split
  · rename_i hv
    split
    · rename_i hx; rw [hx, Memory.read_below hm h, hv]
    · rfl
  · simp only [Memory.read]
    split
    · rfl
    · split
      · rename_i hlt; rw [Memory.read_below hm (by omega)]
      · rfl

theorem Memory.read_write_from {size lo a x : Nat} {v : Byte} {m : Memory} (hm : Memory.wfFrom size lo m = true) :
    Memory.read (Memory.write m a v) x = if x = a then v else Memory.read m x := by
  induction m generalizing lo with
  | nil => exact Memory.read_keep (size := size) (lo := a + 1) rfl (by omega)
  | cons e rest ih =>
    obtain ⟨k, w⟩ := e
    have hc := Memory.wfFrom_cons.mp hm
    simp only [Memory.write]
    split
    · rename_i hak
      rw [Memory.read_keep hc.2.2.2 (by omega)]
      simp only [Memory.read]
      by_cases hx : x = a
      · simp [hx]
      · rw [if_neg hx, if_neg hx, if_neg (by omega)]
        split
        · exact Memory.read_below hc.2.2.2 (by omega)
        · rfl
    · rename_i hak
      split
      · rename_i hlt
        exact Memory.read_keep (lo := k) (Memory.wfFrom_cons.mpr ⟨le_refl _, hc.2⟩) hlt
      · rename_i hge
        simp only [Memory.read]
        rw [ih hc.2.2.2]
        by_cases hxk : x = k
        · rw [if_pos hxk, if_pos hxk, if_neg (by omega)]
        · rw [if_neg hxk, if_neg hxk]
          by_cases hlt : x < k
          · rw [if_pos hlt, if_pos hlt, if_neg (by omega)]
          · rw [if_neg hlt, if_neg hlt]

/-- Read after write. -/
theorem Memory.read_write {size : Nat} {m : Memory} (hm : Memory.wf size m = true) (a x : Nat) (v : Byte) :
    Memory.read (Memory.write m a v) x = if x = a then v else Memory.read m x :=
  Memory.read_write_from hm

theorem Memory.wfFrom_keep {size lo a : Nat} {v : Byte} {m : Memory} (h : lo ≤ a) (ha : a < size)
    (hm : Memory.wfFrom size (a + 1) m = true) : Memory.wfFrom size lo (Memory.keep a v m) = true := by
  unfold Memory.keep
  split
  · exact Memory.wfFrom_mono (by omega) hm
  · rename_i hv; exact Memory.wfFrom_cons.mpr ⟨h, ha, hv, hm⟩

theorem Memory.wfFrom_write {size lo a : Nat} {v : Byte} {m : Memory} (h : lo ≤ a) (ha : a < size)
    (hm : Memory.wfFrom size lo m = true) : Memory.wfFrom size lo (Memory.write m a v) = true := by
  induction m generalizing lo with
  | nil => exact Memory.wfFrom_keep h ha rfl
  | cons e rest ih =>
    obtain ⟨k, w⟩ := e
    have hc := Memory.wfFrom_cons.mp hm
    simp only [Memory.write]
    split
    · rename_i hak; exact Memory.wfFrom_keep h ha (hak ▸ hc.2.2.2)
    · split
      · exact Memory.wfFrom_keep h ha (Memory.wfFrom_cons.mpr ⟨by omega, hc.2⟩)
      · exact Memory.wfFrom_cons.mpr ⟨hc.1, hc.2.1, hc.2.2.1, ih (by omega) hc.2.2.2⟩

/-- A write keeps the canonical form. -/
theorem Memory.wf_write {size a : Nat} {m : Memory} (hm : Memory.wf size m = true) (ha : a < size) (v : Byte) :
    Memory.wf size (Memory.write m a v) = true :=
  Memory.wfFrom_write (Nat.zero_le _) ha hm

/-- Loading an image keeps the canonical form. -/
theorem Memory.wf_load {size a : Nat} {m : Memory} (data : List Byte) (hm : Memory.wf size m = true)
    (ha : a + data.length ≤ size) : Memory.wf size (Memory.load m a data) = true := by
  induction data generalizing m a with
  | nil => exact hm
  | cons b rest ih =>
    simp only [List.length_cons] at ha
    exact ih (Memory.wf_write hm (by omega) b) (by omega)

theorem Memory.nibbles_keep {a : Nat} {v : Byte} {m : Memory} (hv : v.toNat < 16) (hm : Memory.nibbles m = true) :
    Memory.nibbles (Memory.keep a v m) = true := by
  unfold Memory.keep; split
  · exact hm
  · simp [Memory.nibbles, hv, hm]

/-- A write of a 4-bit value keeps every cell 4 bits wide. -/
theorem Memory.nibbles_write {a : Nat} {v : Byte} {m : Memory} (hv : v.toNat < 16) (hm : Memory.nibbles m = true) :
    Memory.nibbles (Memory.write m a v) = true := by
  induction m with
  | nil => exact Memory.nibbles_keep hv rfl
  | cons e rest ih =>
    obtain ⟨k, w⟩ := e
    have hc : w.toNat < 16 ∧ Memory.nibbles rest = true := by simpa [Memory.nibbles] using hm
    simp only [Memory.write]
    split
    · exact Memory.nibbles_keep hv hc.2
    · split
      · exact Memory.nibbles_keep hv hm
      · simp [Memory.nibbles, hc.1, ih hc.2]

theorem and_0f_lt : ∀ v : Byte, (v &&& 0x0F).toNat < 16 := by decide

theorem colourInit_wfFrom {lo lo' : Nat} {m : Memory} (h : lo' + 0xD800 ≤ lo ∨ lo' = 0)
    (hm : Memory.wfFrom 0x10000 lo m = true) : Memory.wfFrom 0x400 lo' (colourInit m) = true := by
  induction m generalizing lo lo' with
  | nil => rfl
  | cons e rest ih =>
    obtain ⟨k, v⟩ := e
    have hc := Memory.wfFrom_cons.mp hm
    simp only [colourInit]
    split
    · rename_i hk
      exact Memory.wfFrom_keep (by omega) (by omega) (ih (Or.inl (by omega)) hc.2.2.2)
    · exact ih (by omega) hc.2.2.2

/-- Colour RAM at reset is in canonical form. -/
theorem colourInit_wf {m : Memory} (hm : Memory.wf 0x10000 m = true) : Memory.wf 0x400 (colourInit m) = true :=
  colourInit_wfFrom (Or.inr rfl) hm

/-- Colour RAM at reset is 4 bits wide. -/
theorem colourInit_nibbles (m : Memory) : Memory.nibbles (colourInit m) = true := by
  induction m with
  | nil => rfl
  | cons e rest ih =>
    obtain ⟨k, v⟩ := e
    simp only [colourInit]
    split
    · exact Memory.nibbles_keep (and_0f_lt v) ih
    · exact ih

end Sys2Proof.Machine
end

