-- ==== Sys2Proof/Laws/Bus.lean ====
section
/-! SUPPORT. What one CPU bus cycle can do, said once (`busCycle_spec`): later proofs cite it and never unfold the
master cycle. -/

namespace Sys2Proof.Machine

/-! ### CPU-RESET -/

theorem neverFalls_cons {l m : Bool} {rest : List Bool} :
    neverFalls l (m :: rest) = true ↔ (l = true → m = true) ∧ neverFalls m rest = true := by
  cases l <;> cases m <;> simp [neverFalls]

theorem neverFalls_skip {l m : Bool} {rest : List Bool} (h1 : l = true → m = true) (h : neverFalls m rest = true) :
    neverFalls l rest = true := by
  match rest with
  | [] => rfl
  | n :: r =>
    rw [neverFalls_cons] at h ⊢
    exact ⟨fun hl => h.1 (h1 hl), h.2⟩

theorem neverFalls_dueBy (t : Nat) (l : Bool) (cur : PinInputs) (sched : List (Nat × PinInputs))
    (h : neverFalls l (cur.reset :: sched.map fun e => e.2.reset) = true) :
    neverFalls l ((dueBy t cur sched).1.reset ::
      (dueBy t cur sched).2.map fun e => e.2.reset) = true := by
  induction sched generalizing cur with
  | nil => exact h
  | cons e rest ih =>
    obtain ⟨k, p⟩ := e
    simp only [dueBy]
    split
    · apply ih
      rw [neverFalls_cons] at h
      exact neverFalls_skip h.1 h.2
    · exact h

/-- While CPU-RESET does not fall, no master cycle sees an edge. -/
theorem NoReset.edge {s : State} (h : NoReset s) : resetEdge (inputPhase s) = false := by
  have h1 := neverFalls_cons.mp (neverFalls_dueBy s.cycle _ _ _ h)
  unfold resetEdge
  cases hp : s.latches.resetPrev
  · simp [inputPhase, hp]
  · have := h1.1 hp
    simp [inputPhase, hp, this]

theorem NoReset.cpuView {s : State} (h : NoReset s) : NoReset (cpuView s) := by
  have h1 := neverFalls_cons.mp (neverFalls_dueBy s.cycle _ _ _ h)
  exact neverFalls_cons.mpr ⟨fun h => h, h1.2⟩

/-- `NoReset` looks at three fields only. -/
theorem NoReset.congr {s t : State} (h : NoReset s) (hl : t.latches.resetPrev = s.latches.resetPrev)
    (hp : t.inputs.pins = s.inputs.pins) (hs : t.inputs.schedule = s.inputs.schedule) : NoReset t := by
  unfold NoReset at *
  rw [hl, hp, hs]
  exact h

/-! ### What the device phases leave alone -/

@[simp] theorem endPhase_pins_inputs (s : State) : (endPhase s).inputs.pins = s.inputs.pins := by
  unfold endPhase; split <;> rfl

@[simp] theorem endPhase_schedule (s : State) : (endPhase s).inputs.schedule = s.inputs.schedule := by
  unfold endPhase; split <;> rfl

@[simp] theorem devicePhases_pins_inputs (s : State) : (devicePhases s).inputs.pins = s.inputs.pins := by
  simp [devicePhases]

@[simp] theorem devicePhases_schedule (s : State) : (devicePhases s).inputs.schedule = s.inputs.schedule := by
  simp [devicePhases]

@[simp] theorem settings_inputPhase (s : State) : settings (inputPhase s) = settings s := rfl

@[simp] theorem settings_vicPhase (s : State) : settings (vicPhase s) = settings s := by
  simp only [settings, vicPhase, putVic_vic, putVic_cia1, putVic_cia2, putVic_sid, Vic.tick_settings]

@[simp] theorem settings_detectEdges (s : State) : settings (detectEdges s) = settings s := rfl

@[simp] theorem settings_cpuView (s : State) : settings (cpuView s) = settings s := by
  simp only [cpuView, settings_detectEdges, settings_vicPhase, settings_inputPhase]

@[simp] theorem settings_tapePhase (s : State) : settings (tapePhase s) = settings s := by
  unfold tapePhase; split <;> rfl

@[simp] theorem settings_cia1Phase (s : State) : settings (cia1Phase s) = settings s := by
  simp only [settings, cia1Phase, Cia.tick_settings]

@[simp] theorem settings_cia2Phase (s : State) : settings (cia2Phase s) = settings s := by
  simp only [settings, cia2Phase, Cia.tick_settings]

@[simp] theorem settings_sidPhase (s : State) : settings (sidPhase s) = settings s := by
  simp only [settings, sidPhase, Sid.tick_settings]

@[simp] theorem settings_endPhase (s : State) : settings (endPhase s) = settings s := by
  unfold endPhase; split <;> rfl

@[simp] theorem settings_devicePhases (s : State) : settings (devicePhases s) = settings s := by
  simp only [devicePhases, settings_endPhase, settings_sidPhase, settings_cia2Phase, settings_cia1Phase,
    settings_tapePhase]

/-! ### Reads and writes look at a part of the state only -/

theorem bankAt_congr {s t : State} (hp : t.params = s.params) (hq : t.port = s.port) (a : Word) :
    bankAt t a = bankAt s a := by
  unfold bankAt; rw [hp, hq]

theorem isUltimax_congr {s t : State} (hp : t.params = s.params) (hq : t.port = s.port) :
    isUltimax t = isUltimax s := by
  unfold isUltimax; rw [hp, hq]

theorem plainAt_congr {s t : State} (hp : t.params = s.params) (hq : t.port = s.port) (a : Word) :
    plainAt t a = plainAt s a := by
  unfold plainAt; rw [bankAt_congr hp hq]

theorem landsInRam_congr {s t : State} (hp : t.params = s.params) (hq : t.port = s.port) (a : Word) :
    landsInRam t a = landsInRam s a := by
  unfold landsInRam; rw [bankAt_congr hp hq, isUltimax_congr hp hq]

/-- The value at a plain address. -/
theorem peek_congr {s t : State} (hp : t.params = s.params) (hq : t.port = s.port) (hr : t.ram = s.ram) (a : Word)
    (ha : plainAt s a = true) : peek t a = peek s a := by
  simp only [plainAt, Bool.and_eq_true, decide_eq_true_eq] at ha
  unfold peek
  rw [bankAt_congr hp hq, hp, hq, hr]
  rw [if_neg ha.1.1, if_neg ha.1.1]
  split
  · rfl
  · split <;> first | rfl | (rename_i h; exact absurd h ha.1.2) | (rename_i h; exact absurd h ha.2)

/-- The memory side of a write depends on the memory side of the state. -/
theorem writeEffect_congr {s t : State} (hp : t.params = s.params) (hq : t.port = s.port) (hr : t.ram = s.ram)
    (hc : t.colour = s.colour) (hs : settings t = settings s) (a : Word) (v : Byte) :
    (writeEffect t a v).ram = (writeEffect s a v).ram ∧ (writeEffect t a v).colour = (writeEffect s a v).colour ∧
      (writeEffect t a v).port = (writeEffect s a v).port ∧
      settings (writeEffect t a v) = settings (writeEffect s a v) := by
  simp only [settings, DeviceSettings.mk.injEq] at hs ⊢
  obtain ⟨hv, h1, h2, h3⟩ := hs
  have eV : ∀ r b, (t.vic.write r b).settings = (s.vic.write r b).settings := fun r b => by
    rw [Vic.write_settings, hv, ← Vic.write_settings]
  have e1 : ∀ r b, (t.cia1.write r b).settings = (s.cia1.write r b).settings := fun r b => by
    rw [Cia.write_settings, h1, ← Cia.write_settings]
  have e2 : ∀ r b, (t.cia2.write r b).settings = (s.cia2.write r b).settings := fun r b => by
    rw [Cia.write_settings, h2, ← Cia.write_settings]
  have e3 : ∀ r b, (t.sid.write r b).settings = (s.sid.write r b).settings := fun r b => by
    rw [Sid.write_settings, h3, ← Sid.write_settings]
  unfold writeEffect
  rw [bankAt_congr hp hq, isUltimax_congr hp hq]
  split
  · exact ⟨hr, hc, by simp only [hq], hv, h1, h2, h3⟩
  · split
    · exact ⟨hr, hc, by simp only [hq], hv, h1, h2, h3⟩
    · split
      all_goals try split
      all_goals first
        | exact ⟨by simp only [ramWrite, hr], hc, hq, hv, h1, h2, h3⟩
        | exact ⟨hr, hc, hq, hv, h1, h2, h3⟩
        | skip
      unfold ioWrite
      split
      · exact ⟨hr, hc, hq, eV _ _, h1, h2, h3⟩
      · exact ⟨hr, hc, hq, hv, h1, h2, e3 _ _⟩
      · exact ⟨hr, by simp only [hc], hq, hv, h1, h2, h3⟩
      · exact ⟨hr, hc, hq, hv, e1 _ _, h2, h3⟩
      · exact ⟨hr, hc, hq, hv, h1, e2 _ _, h3⟩
      · exact ⟨hr, hc, hq, hv, h1, h2, h3⟩

@[simp] theorem settings_ioReadEffect (s : State) (t : IoTarget) : settings (ioReadEffect s t) = settings s := by
  cases t <;> simp [ioReadEffect, settings]

@[simp] theorem settings_readEffect (s : State) (a : Word) : settings (readEffect s a) = settings s := by
  unfold readEffect
  split
  · rfl
  · split <;> first | rfl | exact settings_ioReadEffect _ _

/-! ### Time passing with no bus cycle -/

theorem passes_stall {s : State} (h : NoReset s) : Passes s (devicePhases (stallPhase (cpuView s))) where
  regs := by simp
  ticks := by simp
  ram := by simp
  colour := by simp
  port := by simp
  bus := by simp
  settings := by rw [settings_devicePhases]; exact settings_cpuView s
  params := by simp
  status := by simp
  resetPending := by simp [stallPhase, cpuView, detectEdges]
  taken := by simp [stallPhase, cpuView, detectEdges]
  polls := by simp [stallPhase, cpuView, detectEdges]
  micro := by simp [stallPhase, cpuView, detectEdges]
  noReset := h.cpuView.congr (by simp [stallPhase]) (by simp) (by simp)

/-! ### One bus cycle -/

/-- What a bus operation makes of the memory side of a state. -/
def BusOp.effect (op : BusOp) (s : State) : State :=
  match op with
  | .read _ => s
  | .write a v => writeEffect s a v

/-- Everything one CPU bus cycle does, whatever the VIC and the devices do meanwhile. -/
structure BusSpec (op : BusOp) (upd : Byte → Regs → Regs) (s : State) (v : Byte) (t : State) : Prop where
  after : After s (op.effect s) t (upd v s.regs) [⟨op.addr, v, op.isWrite⟩]
  bus : t.bus = v
  read : ∀ a, op = .read a → plainAt s a = true → v = peek s a
  write : ∀ a w, op = .write a w → v = w

theorem transfers_cons (s : State) (k : BusTick) (ts : List BusTick) (h : s.ticks = k :: ts) :
    transfers s = ⟨k.addr, k.value, k.isWrite⟩ :: ts.map fun k => ⟨k.addr, k.value, k.isWrite⟩ := by
  simp [transfers, h]

theorem busPhase_spec {op : BusOp} {upd : Byte → Regs → Regs} {s : State} (h : NoReset s) :
    BusSpec op upd s (busPhase op upd (cpuView s)).1 (devicePhases (busPhase op upd (cpuView s)).2) := by
  cases op with
  | read a =>
    refine ⟨?_, ?_, ?_, ?_⟩
    · constructor
      · simp [busPhase, access]
      · simp [transfers, busPhase, access, BusOp.addr, BusOp.isWrite]
      · simp [busPhase, access, BusOp.effect]
      · simp [busPhase, access, BusOp.effect]
      · simp [busPhase, access, BusOp.effect]
      · rw [settings_devicePhases]
        show settings (readEffect (cpuView s) a) = settings s
        rw [settings_readEffect, settings_cpuView]
      · simp [busPhase, access]
      · simp [busPhase, access]
      · simp [busPhase, access, cpuView, detectEdges]
      · simp [busPhase, access, cpuView, detectEdges]
      · exact h.cpuView.congr (by simp [busPhase, access]) (by simp [busPhase, access]) (by simp [busPhase, access])
    · simp [busPhase, access, memRead]
    · intro b hb hp
      cases hb
      exact peek_congr (by simp) (by simp) (by simp) a hp
    · intro b w hb; cases hb
  | write a w =>
    have c := writeEffect_congr (s := s) (t := cpuView s) (by simp) (by simp) (by simp) (by simp)
      (settings_cpuView s) a w
    refine ⟨?_, ?_, ?_, ?_⟩
    · constructor
      · simp [busPhase, access]
      · simp [transfers, busPhase, access, BusOp.addr, BusOp.isWrite]
      · simp only [devicePhases_ram]; exact c.1
      · simp only [devicePhases_colour]; exact c.2.1
      · simp only [devicePhases_port]; exact c.2.2.1
      · rw [settings_devicePhases]; exact c.2.2.2
      · simp [busPhase, access]
      · simp [busPhase, access]
      · simp [busPhase, access, cpuView, detectEdges]
      · simp [busPhase, access, cpuView, detectEdges]
      · exact h.cpuView.congr (by simp [busPhase, access]) (by simp [busPhase, access]) (by simp [busPhase, access])
    · simp [busPhase, access, memWrite]
    · intro b hb; cases hb
    · intro b x hb; cases hb; rfl

/-- A stalled master cycle, with no reset: the device ticks and nothing of the CPU's. -/
theorem masterCycle_stall {op : BusOp} {upd : Byte → Regs → Regs} {s : State}
    (hr : (masterCycle false op upd s).reset = false) (hd : (masterCycle false op upd s).done = false) :
    (masterCycle false op upd s).state = devicePhases (stallPhase (cpuView s)) := by
  unfold masterCycle at *
  dsimp only at *
  rw [Bool.false_or] at hd
  simp only [hr, hd, Bool.false_or, Bool.false_eq_true, if_false]

/-- After a stalled master cycle the same bus cycle is attempted again (R783). -/
theorem busLoop_stall {op : BusOp} {upd : Byte → Regs → Regs} {s : State}
    (hr : (masterCycle false op upd s).reset = false) (hd : (masterCycle false op upd s).done = false) (n : Nat) :
    busLoop op upd (n + 1) s = busLoop op upd n (masterCycle false op upd s).state := by
  simp only [busLoop, hr, hd, Bool.false_eq_true, if_false]

/-- One master cycle in which the CPU has the bus, or in which it is stalled. -/
theorem masterCycle_spec {force : Bool} {op : BusOp} {upd : Byte → Regs → Regs} {s : State} (h : NoReset s) :
    (masterCycle force op upd s).reset = false ∧
      (((masterCycle force op upd s).done = true ∧
          BusSpec op upd s (masterCycle force op upd s).value (masterCycle force op upd s).state) ∨
        ((masterCycle force op upd s).done = false ∧ force = false ∧
          Passes s (masterCycle force op upd s).state)) := by
  unfold masterCycle
  simp only [h.edge, Bool.false_eq_true, if_false, true_and]
  cases hg : (force || granted op (cpuView s))
  · right
    simp only [Bool.false_eq_true, if_false, true_and]
    refine ⟨?_, passes_stall h⟩
    cases force
    · rfl
    · simp at hg
  · left
    simp only [if_true, true_and]
    exact busPhase_spec h

/-- A bus cycle after time has passed is a bus cycle from before it. -/
theorem BusSpec.of_passes {op : BusOp} {upd : Byte → Regs → Regs} {s t u : State} {v : Byte} (hp : Passes s t)
    (h : BusSpec op upd t v u) : BusSpec op upd s v u := by
  have eff : ∀ op : BusOp, (op.effect t).ram = (op.effect s).ram ∧ (op.effect t).colour = (op.effect s).colour ∧
      (op.effect t).port = (op.effect s).port ∧ settings (op.effect t) = settings (op.effect s) := by
    intro op
    cases op with
    | read a => exact ⟨hp.ram, hp.colour, hp.port, hp.settings⟩
    | write a w => exact writeEffect_congr hp.params hp.port hp.ram hp.colour hp.settings a w
  obtain ⟨e1, e2, e3, e4⟩ := eff op
  have a := h.after
  refine ⟨⟨?_, ?_, ?_, ?_, ?_, ?_, ?_, ?_, ?_, ?_, a.noReset⟩, h.bus, ?_, h.write⟩
  · rw [a.regs, hp.regs]
  · rw [a.transfers]; unfold transfers; rw [hp.ticks]
  · rw [a.ram, e1]
  · rw [a.colour, e2]
  · rw [a.port, e3]
  · rw [a.settings, e4]
  · rw [a.params, hp.params]
  · rw [a.status, hp.status]
  · rw [a.resetPending, hp.resetPending]
  · rw [a.taken.1, a.taken.2, hp.taken.1, hp.taken.2]; exact ⟨rfl, rfl⟩
  · intro b hb hpl
    rw [h.read b hb ((plainAt_congr hp.params hp.port b).trans hpl)]
    exact peek_congr hp.params hp.port hp.ram b hpl

theorem busLoop_spec {op : BusOp} {upd : Byte → Regs → Regs} (n : Nat) {s : State} (h : NoReset s) :
    ∃ v t, busLoop op upd n s = .ok v t ∧ BusSpec op upd s v t := by
  induction n generalizing s with
  | zero =>
    obtain ⟨hr, ⟨hd, hs⟩ | ⟨_, hf, _⟩⟩ := masterCycle_spec (force := true) (op := op) (upd := upd) h
    · exact ⟨_, _, by simp [busLoop, hr], hs⟩
    · cases hf
  | succ n ih =>
    obtain ⟨hr, ⟨hd, hs⟩ | ⟨hd, _, hs⟩⟩ := masterCycle_spec (force := false) (op := op) (upd := upd) h
    · exact ⟨_, _, by simp [busLoop, hr, hd], hs⟩
    · obtain ⟨v, t, e, b⟩ := ih hs.noReset
      exact ⟨v, t, by simp [busLoop, hr, hd, e], b.of_passes hs⟩

/-- One CPU bus cycle while CPU-RESET does not fall: it completes, and this is all it does. -/
theorem busCycle_spec {op : BusOp} {upd : Byte → Regs → Regs} {s : State} (h : NoReset s) :
    ∃ v t, busCycle op upd s = .ok v t ∧ BusSpec op upd s v t :=
  busLoop_spec stallFuel h

/-! ### Composition -/

/-- No transfer, no change. -/
theorem After.refl {s : State} (h : NoReset s) : After s s s s.regs [] :=
  ⟨rfl, rfl, rfl, rfl, rfl, rfl, rfl, rfl, rfl, ⟨rfl, rfl⟩, h⟩

/-- A stretch of reads, then another stretch. -/
theorem After.trans {s t u e : State} {r r' : Regs} {ops ops' : List Transfer} (h : After s s t r ops)
    (h' : After t e u r' ops') : After s e u r' (ops ++ ops') := by
  refine ⟨h'.regs, ?_, h'.ram, h'.colour, h'.port, h'.settings, ?_, ?_, ?_, ?_, h'.noReset⟩
  · rw [h'.transfers, h.transfers]; simp
  · rw [h'.params, h.params]
  · rw [h'.status, h.status]
  · rw [h'.resetPending, h.resetPending]
  · rw [h'.taken.1, h'.taken.2]; exact h.taken

/-- The memory side may be named by any state that agrees on it. -/
theorem After.retarget {s e e' t : State} {r : Regs} {ops : List Transfer} (h : After s e t r ops)
    (h1 : e'.ram = e.ram) (h2 : e'.colour = e.colour) (h3 : e'.port = e.port) (h4 : Machine.settings e' = Machine.settings e) :
    After s e' t r ops :=
  ⟨h.regs, h.transfers, h.ram.trans h1.symm, h.colour.trans h2.symm, h.port.trans h3.symm, h.settings.trans h4.symm,
    h.params, h.status, h.resetPending, h.taken, h.noReset⟩

/-- Two stretches, the first of which may have written. -/
theorem After.comp {s e t e' u : State} {r r' : Regs} {ops ops' : List Transfer} (h : After s e t r ops)
    (h' : After t e' u r' ops') : After s e' u r' (ops ++ ops') := by
  refine ⟨h'.regs, ?_, h'.ram, h'.colour, h'.port, h'.settings, ?_, ?_, ?_, ?_, h'.noReset⟩
  · rw [h'.transfers, h.transfers]; simp
  · rw [h'.params, h.params]
  · rw [h'.status, h.status]
  · rw [h'.resetPending, h.resetPending]
  · rw [h'.taken.1, h'.taken.2]; exact h.taken

/-- A stretch that ends in a write, its memory side named from the state before it. -/
theorem After.write {s e t u : State} {r r' : Regs} {ops ops' : List Transfer} {a : Word} {v : Byte}
    (hp : e.params = s.params) (h : After s e t r ops) (h' : After t (writeEffect t a v) u r' ops') :
    After s (writeEffect e a v) u r' (ops ++ ops') := by
  have c := writeEffect_congr (s := t) (t := e) (hp.trans h.params.symm) h.port.symm h.ram.symm h.colour.symm
    h.settings.symm a v
  exact (h.comp h').retarget c.1 c.2.1 c.2.2.1 c.2.2.2

theorem After.plain {s t : State} {r : Regs} {ops : List Transfer} (h : After s s t r ops) (a : Word) :
    plainAt t a = plainAt s a := plainAt_congr h.params h.port a

theorem After.peek {s t : State} {r : Regs} {ops : List Transfer} (h : After s s t r ops) (a : Word)
    (ha : plainAt s a = true) : Machine.peek t a = Machine.peek s a := peek_congr h.params h.port h.ram a ha

/-! ### RAM after a write -/

@[simp] theorem writeEffect_params' (s : State) (a : Word) (v : Byte) : (writeEffect s a v).params = s.params :=
  writeEffect_params s a v

theorem word_gt_one {a : Word} (h0 : a ≠ 0) (h1 : a ≠ 1) : 1 < a.toNat := by
  have e0 : a.toNat ≠ 0 := fun h => h0 (BitVec.eq_of_toNat_eq h)
  have e1 : a.toNat ≠ 1 := fun h => h1 (BitVec.eq_of_toNat_eq h)
  omega

/-- RAM after a CPU write (R211). -/
theorem writeEffect_ram (s : State) (a : Word) (v : Byte) :
    (writeEffect s a v).ram = if landsInRam s a = true then Memory.write s.ram a.toNat v else s.ram := by
  unfold writeEffect
  by_cases h0 : a = 0
  · subst h0; simp [landsInRam]
  · by_cases h1 : a = 1
    · subst h1; simp [landsInRam]
    · have hg := word_gt_one h0 h1
      rw [if_neg h0, if_neg h1]
      unfold landsInRam
      cases hb : bankAt s a <;> simp [hg, ramWrite]
      all_goals cases isUltimax s <;> simp

/-- A write of RAM or of a device leaves the port alone; only $0000 and $0001 are the port. -/
theorem writeEffect_port (s : State) (a : Word) (v : Byte) (h0 : a ≠ 0) (h1 : a ≠ 1) :
    (writeEffect s a v).port = s.port := by
  unfold writeEffect
  rw [if_neg h0, if_neg h1]
  split <;> first | rfl | (split <;> rfl) | simp

theorem landsInRam_gt {s : State} {a : Word} (h : landsInRam s a = true) : a ≠ 0 ∧ a ≠ 1 := by
  unfold landsInRam at h
  constructor
  · rintro rfl; simp at h
  · rintro rfl; simp at h

/-- The frame of one store. -/
theorem ramFrame_write {s t : State} {a : Word} {v : Byte} (h : t.ram = (writeEffect s a v).ram) :
    RamFrame s t a v := by
  intro hw x
  rw [h, writeEffect_ram]
  by_cases hl : landsInRam s a = true
  · simp only [hl, if_true, true_and]
    exact Memory.read_write hw a.toNat x v
  · simp only [hl]; simp

/-- The frame of a read-modify-write's two stores. -/
theorem ramFrame_rmw {s t : State} {a : Word} {m v : Byte}
    (h : t.ram = (writeEffect (writeEffect s a m) a v).ram) : RamFrame s t a v := by
  intro hw x
  rw [h, writeEffect_ram, writeEffect_ram]
  by_cases hl : landsInRam s a = true
  · have g := landsInRam_gt hl
    have hl' : landsInRam (writeEffect s a m) a = true := by
      rw [landsInRam_congr (writeEffect_params s a m) (writeEffect_port s a m g.1 g.2)]; exact hl
    simp only [hl, hl', if_true, true_and]
    rw [Memory.read_write (Memory.wf_write hw a.isLt m) a.toNat x v]
    split
    · rfl
    · rename_i hx; rw [Memory.read_write hw, if_neg hx]
  · have hl' : landsInRam (writeEffect s a m) a = false := by
      by_cases h0 : a = 0
      · subst h0; simp [landsInRam]
      · by_cases h1 : a = 1
        · subst h1; simp [landsInRam]
        · rw [landsInRam_congr (writeEffect_params s a m) (writeEffect_port s a m h0 h1)]
          simpa using hl
    simp only [hl, hl']; simp

end Sys2Proof.Machine
end

