-- ==== Sys2Proof/Laws/Operands.lean ====
section
/-! SUPPORT. What each addressing mode and each shared bus sequence does while CPU-RESET does not fall, said once:
the proofs about instructions cite these and never unfold a bus sequence. -/

namespace Sys2Proof.Machine

/-! ### Running one sequence after another -/

theorem Bus.live_bind {α β : Type} (m : Bus α) (k : α → Bus β) (s : State) :
    (m.bind k).live s = match m.live s with
      | .ok a t => (k a).live t
      | .error e t => .error e t := by
  induction m generalizing s with
  | done a => rfl
  | look f ih => exact ih _ s
  | set f m ih => exact ih _
  | cycle op upd f ih =>
    simp only [Bus.bind, Bus.live]
    cases busCycle op upd s with
    | ok v t => exact ih v t
    | error e t => rfl

/-! ### Bus sequences that complete -/

/-- The sequence runs to its end from `s`, and `P` holds of what it answers. -/
def Does {α : Type} (m : Bus α) (s : State) (P : α → State → Prop) : Prop := ∃ a t, m.live s = .ok a t ∧ P a t

theorem Does.bind {α β : Type} {m : Bus α} {k : α → Bus β} {s : State} {P : α → State → Prop} {Q : β → State → Prop}
    (h : Does m s P) (hk : ∀ a t, P a t → Does (k a) t Q) : Does (m.bind k) s Q := by
  obtain ⟨a, t, e, p⟩ := h
  obtain ⟨b, u, e', q⟩ := hk a t p
  exact ⟨b, u, by rw [Bus.live_bind, e]; exact e', q⟩

theorem Does.look {β : Type} {k : Regs → Bus β} {s : State} {Q : β → State → Prop} (h : Does (k s.regs) s Q) :
    Does (.look k) s Q := h

theorem Does.done {α : Type} {a : α} {s : State} {P : α → State → Prop} (h : P a s) : Does (.done a) s P :=
  ⟨a, s, rfl, h⟩

theorem Does.mono {α : Type} {m : Bus α} {s : State} {P Q : α → State → Prop} (h : Does m s P)
    (hq : ∀ a t, P a t → Q a t) : Does m s Q := by
  obtain ⟨a, t, e, p⟩ := h
  exact ⟨a, t, e, hq a t p⟩

/-- A sequence that completes gives a next state. -/
theorem Does.gives {m : Bus Unit} {s : State} {P : State → Prop} (h : Does m s fun _ t => P t) : Gives (run m s) P := by
  obtain ⟨a, t, e, p⟩ := h
  exact ⟨t, by simp [run, e], p⟩

/-- Whatever the sequence is, its outcome is a next state. -/
theorem run_next (m : Bus Unit) (s : State) : ∃ t, run m s = .next t := by
  unfold run
  split <;> exact ⟨_, rfl⟩

/-! ### Single bus cycles -/

theorem readCycle_spec {a : Word} {upd : Byte → Regs → Regs} {s : State} (h : NoReset s) :
    Does (readCycle a upd) s fun v t => After s s t (upd v s.regs) [rd a v] ∧ (plainAt s a = true → v = peek s a) := by
  obtain ⟨v, t, e, b⟩ := busCycle_spec (op := .read a) (upd := upd) h
  exact ⟨v, t, by simp [readCycle, Bus.live, e], b.after, b.read a rfl⟩

theorem lastRead_spec {a : Word} {upd : Byte → Regs → Regs} {s : State} (h : NoReset s) :
    Does (lastRead a upd) s fun _ t => ∃ v,
      After s s t (upd v s.regs) [rd a v] ∧ (plainAt s a = true → v = peek s a) := by
  obtain ⟨v, t, e, b⟩ := busCycle_spec (op := .read a) (upd := upd) h
  exact ⟨(), t, by simp [lastRead, Bus.live, e], v, b.after, b.read a rfl⟩

theorem dummyCycle_spec {a : Word} {s : State} (h : NoReset s) :
    Does (dummyCycle a) s fun _ t => ∃ d, After s s t s.regs [rd a d] :=
  (lastRead_spec (upd := fun _ r => r) h).mono fun _ _ ⟨d, p⟩ => ⟨d, p.1⟩

theorem writeCycle_spec {a : Word} {v : Byte} {upd : Regs → Regs} {s : State} (h : NoReset s) :
    Does (writeCycle a v upd) s fun _ t => After s (writeEffect s a v) t (upd s.regs) [wr a v] := by
  obtain ⟨w, t, e, b⟩ := busCycle_spec (op := .write a v) (upd := fun _ r => upd r) h
  obtain rfl := b.write a v rfl
  exact ⟨(), t, by simp [writeCycle, Bus.live, e], b.after⟩

/-- A stretch of reads, then another. -/
theorem After.andThen {s t u : State} {r r' : Regs} {ops ops' : List Transfer} (h : After s s t r ops)
    (h' : After t t u r' ops') : After s s u r' (ops ++ ops') :=
  (h.comp h').retarget h.ram.symm h.colour.symm h.port.symm h.settings.symm

theorem readByte_spec {a : Word} {s : State} (h : NoReset s) :
    Does (readByte a) s fun v t => After s s t s.regs [rd a v] ∧ (plainAt s a = true → v = peek s a) :=
  readCycle_spec h

/-! ### Pointers -/

theorem pointerHi_zext (p : Byte) : pointerHi (zext16 p) = zext16 (p + 1) := by
  unfold pointerHi word hiByte loByte zext16
  revert p
  decide

theorem readPointer_spec {p : Word} {s : State} (h : NoReset s) :
    Does (readPointer p) s fun w t => ∃ l m, w = word m l ∧ After s s t s.regs [rd p l, rd (pointerHi p) m] ∧
      (plainAt s p = true → l = peek s p) ∧ (plainAt s (pointerHi p) = true → m = peek s (pointerHi p)) := by
  refine (readByte_spec h).bind fun l t ⟨a1, p1⟩ => (readByte_spec a1.noReset).bind fun m u ⟨a2, p2⟩ => Does.done ?_
  refine ⟨l, m, rfl, by simpa [a1.regs] using a1.andThen a2, p1, fun hp => ?_⟩
  rw [p2 ((a1.plain _).trans hp), a1.peek _ hp]

theorem readZpPointer_spec {p : Byte} {s : State} (h : NoReset s) :
    Does (readPointer (zext16 p)) s fun w t => ∃ l m, w = word m l ∧
      After s s t s.regs [rd (zext16 p) l, rd (zext16 (p + 1)) m] ∧ PointerAt s p l m := by
  refine (readPointer_spec h).mono fun w t ⟨l, m, e, a, p1, p2⟩ => ?_
  rw [pointerHi_zext] at a p2
  exact ⟨l, m, e, a, p1, p2⟩

theorem addrIzx_spec {z : Byte} {s : State} (h : NoReset s) :
    Does (addrIzx z) s fun w t => ∃ d l m, w = word m l ∧ PointerAt s (z + s.regs.x) l m ∧
      After s s t s.regs [rd (zext16 z) d, rd (zext16 (z + s.regs.x)) l, rd (zext16 (z + s.regs.x + 1)) m] := by
  refine (dummyCycle_spec h).bind fun _ t ⟨d, a1⟩ => Does.look ((readZpPointer_spec a1.noReset).mono ?_)
  rintro w u ⟨l, m, e, a2, p⟩
  rw [a1.regs] at a2 p
  refine ⟨d, l, m, e, ⟨fun hp => ?_, fun hp => ?_⟩, a1.andThen a2⟩
  · rw [p.1 ((a1.plain _).trans hp), a1.peek _ hp]
  · rw [p.2 ((a1.plain _).trans hp), a1.peek _ hp]

/-! ### Stretches put in front -/

theorem ReadsAt.after {f : Byte → Regs → Regs} {s t u : State} {pre pre' : List Transfer} {ea : Word}
    (h : After s s t s.regs pre) (h' : ReadsAt f t u pre' ea) : ReadsAt f s u (pre ++ pre') ea := by
  obtain ⟨m, a, p⟩ := h'
  rw [h.regs] at a
  refine ⟨m, by simpa using h.andThen a, fun hp => ?_⟩
  rw [p ((h.plain _).trans hp), h.peek _ hp]

theorem ReadsIndexed.after {f : Byte → Regs → Regs} {s t u : State} {pre pre' : List Transfer} {base : Word} {i : Byte}
    (h : After s s t s.regs pre) (h' : ReadsIndexed f t u pre' base i) : ReadsIndexed f s u (pre ++ pre') base i := by
  unfold ReadsIndexed at *
  split at h'
  · rename_i hc; rw [if_pos hc]; exact h'.after h
  · rename_i hc
    rw [if_neg hc]
    obtain ⟨d, a⟩ := h'
    exact ⟨d, by simpa using a.after h⟩

theorem RamFrame.after {s t u : State} {ea : Word} {v : Byte} (hp : t.params = s.params) (hq : t.port = s.port)
    (hr : t.ram = s.ram) (h : RamFrame t u ea v) : RamFrame s u ea v := by
  intro hw x
  rw [h (by rw [hr]; exact hw) x, landsInRam_congr hp hq, hr]

theorem WritesAt.after {v : Byte} {s t u : State} {pre pre' : List Transfer} {ea : Word}
    (h : After s s t s.regs pre) (h' : WritesAt v t u pre' ea) : WritesAt v s u (pre ++ pre') ea := by
  obtain ⟨a, f⟩ := h'
  rw [h.regs] at a
  exact ⟨by simpa using After.write rfl h a, f.after h.params h.port h.ram⟩

theorem WritesIndexed.after {v : Byte} {s t u : State} {pre pre' : List Transfer} {base : Word} {i : Byte}
    (h : After s s t s.regs pre) (h' : WritesIndexed v t u pre' base i) : WritesIndexed v s u (pre ++ pre') base i := by
  obtain ⟨d, a⟩ := h'
  exact ⟨d, by simpa using a.after h⟩

/-- The memory side after two writes of one address depends on the memory side before them. -/
theorem After.write2 {s t u : State} {r r' : Regs} {ops ops' : List Transfer} {a : Word} {m v : Byte}
    (h : After s s t r ops) (h' : After t (writeEffect (writeEffect t a m) a v) u r' ops') :
    After s (writeEffect (writeEffect s a m) a v) u r' (ops ++ ops') := by
  have c := writeEffect_congr (s := t) (t := s) h.params.symm h.port.symm h.ram.symm h.colour.symm h.settings.symm a m
  have c' := writeEffect_congr (s := writeEffect t a m) (t := writeEffect s a m)
    ((writeEffect_params s a m).trans (h.params.symm.trans (writeEffect_params t a m).symm)) c.2.2.1 c.1 c.2.1 c.2.2.2 a v
  exact (h.comp h').retarget c'.1 c'.2.1 c'.2.2.1 c'.2.2.2

theorem ModifiesAt.after {res : Byte → Regs → Byte} {f : Byte → Regs → Regs} {s t u : State}
    {pre pre' : List Transfer} {ea : Word} (h : After s s t s.regs pre) (h' : ModifiesAt res f t u pre' ea) :
    ModifiesAt res f s u (pre ++ pre') ea := by
  obtain ⟨m, a, p, g⟩ := h'
  rw [h.regs] at a g
  refine ⟨m, by simpa using h.write2 a, fun hp => ?_, g.after h.params h.port h.ram⟩
  rw [p ((h.plain _).trans hp), h.peek _ hp]

theorem ModifiesIndexed.after {res : Byte → Regs → Byte} {f : Byte → Regs → Regs} {s t u : State}
    {pre pre' : List Transfer} {base : Word} {i : Byte} (h : After s s t s.regs pre)
    (h' : ModifiesIndexed res f t u pre' base i) : ModifiesIndexed res f s u (pre ++ pre') base i := by
  obtain ⟨d, a⟩ := h'
  exact ⟨d, by simpa using a.after h⟩

/-! ### Read class -/

section
variable {f : Byte → Regs → Regs} {s : State}

theorem readOperand_spec {ea : Word} (h : NoReset s) : Does (readOperand ea f) s fun _ t => ReadsAt f s t [] ea :=
  lastRead_spec h

theorem readZpIndexed_spec {z i : Byte} (h : NoReset s) :
    Does (readZpIndexed z i f) s fun _ t => ∃ d, ReadsAt f s t [rd (zext16 z) d] (zext16 (z + i)) :=
  (dummyCycle_spec h).bind fun _ _ ⟨d, a⟩ => (readOperand_spec a.noReset).mono fun _ _ r => ⟨d, r.after a⟩

theorem readIndexed_spec {base : Word} {i : Byte} (h : NoReset s) :
    Does (readIndexed base i f) s fun _ t => ReadsIndexed f s t [] base i := by
  unfold readIndexed ReadsIndexed
  have hc : crossed base i = true ↔ ¬ hiByte (base + zext16 i) = hiByte base := by simp [crossed, indexed]
  by_cases h0 : hiByte (base + zext16 i) = hiByte base
  · simp only [h0, if_true]
    have : crossed base i = false := by simpa using mt hc.mp (not_not.mpr h0)
    rw [if_neg (by simp [this])]
    exact readOperand_spec h
  · simp only [h0, if_false]
    rw [if_pos (hc.mpr h0)]
    exact (dummyCycle_spec h).bind fun _ _ ⟨d, a⟩ =>
      (readOperand_spec a.noReset).mono fun _ _ r => ⟨d, by have b := r.after a; exact b⟩

/-- The read class (R330). -/
theorem readZp_spec (z : Byte) (h : NoReset s) : Does (readZp z f) s fun _ t => (Access.zp z).Reads f s t :=
  readOperand_spec h
theorem readAbs_spec (lo hi : Byte) (h : NoReset s) :
    Does (readAbs lo hi f) s fun _ t => (Access.abs lo hi).Reads f s t := readOperand_spec h
theorem readZpx_spec (z : Byte) (h : NoReset s) : Does (readZpx z f) s fun _ t => (Access.zpx z).Reads f s t :=
  Does.look (readZpIndexed_spec h)
theorem readZpy_spec (z : Byte) (h : NoReset s) : Does (readZpy z f) s fun _ t => (Access.zpy z).Reads f s t :=
  Does.look (readZpIndexed_spec h)
theorem readAbx_spec (lo hi : Byte) (h : NoReset s) :
    Does (readAbx lo hi f) s fun _ t => (Access.abx lo hi).Reads f s t := Does.look (readIndexed_spec h)
theorem readAby_spec (lo hi : Byte) (h : NoReset s) :
    Does (readAby lo hi f) s fun _ t => (Access.aby lo hi).Reads f s t := Does.look (readIndexed_spec h)
theorem readIzx_spec (z : Byte) (h : NoReset s) : Does (readIzx z f) s fun _ t => (Access.izx z).Reads f s t :=
  (addrIzx_spec h).bind fun _ _ ⟨d, l, m, e, p, a⟩ =>
    (readOperand_spec a.noReset).mono fun _ _ r => ⟨d, l, m, p, by subst e; exact r.after a⟩
theorem readIzy_spec (z : Byte) (h : NoReset s) : Does (readIzy z f) s fun _ t => (Access.izy z).Reads f s t :=
  (readZpPointer_spec h).bind fun _ t ⟨l, m, e, a, p⟩ => Does.look <|
    (readIndexed_spec a.noReset).mono fun _ _ r => ⟨l, m, p, by subst e; rw [a.regs] at r; exact r.after a⟩

end

/-! ### Write class -/

section
variable {v : Regs → Byte} {s : State}

theorem writeOperand_spec {ea : Word} (h : NoReset s) :
    Does (writeOperand ea v) s fun _ t => WritesAt (v s.regs) s t [] ea :=
  Does.look ((writeCycle_spec h).mono fun _ _ a => ⟨a, ramFrame_write a.ram⟩)

theorem writeZpIndexed_spec {z i : Byte} (h : NoReset s) :
    Does (writeZpIndexed z i v) s fun _ t => ∃ d, WritesAt (v s.regs) s t [rd (zext16 z) d] (zext16 (z + i)) :=
  (dummyCycle_spec h).bind fun _ _ ⟨d, a⟩ =>
    (writeOperand_spec a.noReset).mono fun _ _ r => ⟨d, by rw [a.regs] at r; exact r.after a⟩

theorem writeIndexed_spec {base : Word} {i : Byte} (h : NoReset s) :
    Does (writeIndexed base i v) s fun _ t => WritesIndexed (v s.regs) s t [] base i :=
  (dummyCycle_spec h).bind fun _ _ ⟨d, a⟩ =>
    (writeOperand_spec a.noReset).mono fun _ _ r => ⟨d, by rw [a.regs] at r; have b := r.after a; exact b⟩

/-- The write class (R331). -/
theorem writeZp_spec (z : Byte) (h : NoReset s) :
    Does (writeZp z v) s fun _ t => (Access.zp z).Writes (v s.regs) s t := writeOperand_spec h
theorem writeAbs_spec (lo hi : Byte) (h : NoReset s) :
    Does (writeAbs lo hi v) s fun _ t => (Access.abs lo hi).Writes (v s.regs) s t := writeOperand_spec h
theorem writeZpx_spec (z : Byte) (h : NoReset s) :
    Does (writeZpx z v) s fun _ t => (Access.zpx z).Writes (v s.regs) s t := Does.look (writeZpIndexed_spec h)
theorem writeZpy_spec (z : Byte) (h : NoReset s) :
    Does (writeZpy z v) s fun _ t => (Access.zpy z).Writes (v s.regs) s t := Does.look (writeZpIndexed_spec h)
theorem writeAbx_spec (lo hi : Byte) (h : NoReset s) :
    Does (writeAbx lo hi v) s fun _ t => (Access.abx lo hi).Writes (v s.regs) s t := Does.look (writeIndexed_spec h)
theorem writeAby_spec (lo hi : Byte) (h : NoReset s) :
    Does (writeAby lo hi v) s fun _ t => (Access.aby lo hi).Writes (v s.regs) s t := Does.look (writeIndexed_spec h)
theorem writeIzx_spec (z : Byte) (h : NoReset s) :
    Does (writeIzx z v) s fun _ t => (Access.izx z).Writes (v s.regs) s t :=
  (addrIzx_spec h).bind fun _ _ ⟨d, l, m, e, p, a⟩ =>
    (writeOperand_spec a.noReset).mono fun _ _ r =>
      ⟨d, l, m, p, by subst e; rw [a.regs] at r; exact r.after a⟩
theorem writeIzy_spec (z : Byte) (h : NoReset s) :
    Does (writeIzy z v) s fun _ t => (Access.izy z).Writes (v s.regs) s t :=
  (readZpPointer_spec h).bind fun _ t ⟨l, m, e, a, p⟩ => Does.look <|
    (writeIndexed_spec a.noReset).mono fun _ _ r =>
      ⟨l, m, p, by subst e; rw [a.regs] at r; exact r.after a⟩

end

/-! ### Read-modify-write class -/

section
variable {f : Byte → Regs → Byte × Regs} {s : State}

theorem rmwOperand_spec {ea : Word} (h : NoReset s) :
    Does (rmwOperand ea f) s fun _ t => ModifiesAt (fun m r => (f m r).1) (fun m r => (f m r).2) s t [] ea := by
  refine (readByte_spec h).bind fun m t ⟨a1, p⟩ => (writeCycle_spec a1.noReset).bind fun _ u a2 => Does.look ?_
  refine (writeCycle_spec a2.noReset).mono fun _ w a3 => ?_
  have b := a1.write rfl a2
  rw [a2.regs, a1.regs] at a3
  have c := After.write (writeEffect_params s ea m) b a3
  exact ⟨m, c, p, ramFrame_rmw c.ram⟩

theorem rmwIndexed_spec {base : Word} {i : Byte} (h : NoReset s) :
    Does (rmwIndexed base i f) s fun _ t =>
      ModifiesIndexed (fun m r => (f m r).1) (fun m r => (f m r).2) s t [] base i :=
  (dummyCycle_spec h).bind fun _ _ ⟨d, a⟩ => (rmwOperand_spec a.noReset).mono fun _ _ r =>
    ⟨d, by have b := r.after a; exact b⟩

/-- The read-modify-write class (R332). -/
theorem rmwZp_spec (z : Byte) (h : NoReset s) :
    Does (rmwZp z f) s fun _ t => (Access.zp z).Modifies (fun m r => (f m r).1) (fun m r => (f m r).2) s t :=
  rmwOperand_spec h
theorem rmwAbs_spec (lo hi : Byte) (h : NoReset s) :
    Does (rmwAbs lo hi f) s fun _ t =>
      (Access.abs lo hi).Modifies (fun m r => (f m r).1) (fun m r => (f m r).2) s t := rmwOperand_spec h
theorem rmwZpx_spec (z : Byte) (h : NoReset s) :
    Does (rmwZpx z f) s fun _ t => (Access.zpx z).Modifies (fun m r => (f m r).1) (fun m r => (f m r).2) s t :=
  Does.look <| (dummyCycle_spec h).bind fun _ _ ⟨d, a⟩ =>
    (rmwOperand_spec a.noReset).mono fun _ _ r => ⟨d, r.after a⟩
theorem rmwAbx_spec (lo hi : Byte) (h : NoReset s) :
    Does (rmwAbx lo hi f) s fun _ t =>
      (Access.abx lo hi).Modifies (fun m r => (f m r).1) (fun m r => (f m r).2) s t := Does.look (rmwIndexed_spec h)
theorem rmwAby_spec (lo hi : Byte) (h : NoReset s) :
    Does (rmwAby lo hi f) s fun _ t =>
      (Access.aby lo hi).Modifies (fun m r => (f m r).1) (fun m r => (f m r).2) s t := Does.look (rmwIndexed_spec h)
theorem rmwIzx_spec (z : Byte) (h : NoReset s) :
    Does (rmwIzx z f) s fun _ t => (Access.izx z).Modifies (fun m r => (f m r).1) (fun m r => (f m r).2) s t :=
  (addrIzx_spec h).bind fun _ _ ⟨d, l, m, e, p, a⟩ =>
    (rmwOperand_spec a.noReset).mono fun _ _ r => ⟨d, l, m, p, by subst e; exact r.after a⟩
theorem rmwIzy_spec (z : Byte) (h : NoReset s) :
    Does (rmwIzy z f) s fun _ t => (Access.izy z).Modifies (fun m r => (f m r).1) (fun m r => (f m r).2) s t :=
  (readZpPointer_spec h).bind fun _ t ⟨l, m, e, a, p⟩ => Does.look <|
    (rmwIndexed_spec a.noReset).mono fun _ _ r =>
      ⟨l, m, p, by subst e; rw [a.regs] at r; exact r.after a⟩

end

end Sys2Proof.Machine
end

