-- ==== Sys2Proof/Laws/Sequences.lean ====
section
/-! SUPPORT. What the implied operations, the branches, the stack operations, the exception sequences and the fetch do
while CPU-RESET does not fall, said once. -/

namespace Sys2Proof.Machine

/-! ### The stack page is RAM -/

theorem plainAt_low {s : State} {a : Word} (h1 : a ≠ 1) (h : a.toNat < 0x1000) : plainAt s a = true := by
  have : a.toNat / 0x1000 = 0 := by omega
  unfold plainAt bankAt memoryMap
  simp only [this]
  have h0 : ∀ m, (plaRow m).a0 = .ram := by
    intro m
    unfold plaRow
    split <;> rfl
  simp only [h0]
  simpa using h1

theorem plainAt_stack (s : State) (b : Byte) : plainAt s (stackAt b) = true := by
  have : ∀ b : Byte, stackAt b ≠ 1 ∧ (stackAt b).toNat < 0x1000 := by decide
  exact plainAt_low (this b).1 (this b).2

theorem landsInRam_stack (s : State) (b : Byte) : landsInRam s (stackAt b) = true := by
  have e : ∀ b : Byte, (stackAt b).toNat / 0x1000 = 0 ∧ 1 < (stackAt b).toNat := by decide
  have h0 : ∀ m, (plaRow m).a0 = .ram := by
    intro m
    unfold plaRow
    split <;> rfl
  unfold landsInRam bankAt memoryMap
  simp [(e b).1, (e b).2, h0]

/-- A stack write changes RAM only. -/
theorem writeEffect_stack (s : State) (b v : Byte) :
    writeEffect s (stackAt b) v = { s with ram := Memory.write s.ram (stackAt b).toNat v } := by
  have e : ∀ b : Byte, stackAt b ≠ 0 ∧ stackAt b ≠ 1 ∧ (stackAt b).toNat / 0x1000 = 0 := by decide
  have h0 : ∀ m, (plaRow m).a0 = .ram := by
    intro m
    unfold plaRow
    split <;> rfl
  have hb : bankAt s (stackAt b) = .ram := by unfold bankAt memoryMap; simp [(e b).2.2, h0]
  unfold writeEffect
  rw [if_neg (e b).1, if_neg (e b).2.1, hb]
  rfl

/-! ### Writes one after another -/

theorem After.stored {s t u : State} {ws : List (Word × Byte)} {r r' : Regs} {ops ops' : List Transfer} {a : Word}
    {v : Byte} (hp : (Machine.stored s ws).params = s.params) (h : After s (Machine.stored s ws) t r ops)
    (h' : After t (writeEffect t a v) u r' ops') :
    After s (Machine.stored s (ws ++ [(a, v)])) u r' (ops ++ ops') := by
  have e : ∀ (ws : List (Word × Byte)) (s : State),
      Machine.stored s (ws ++ [(a, v)]) = writeEffect (Machine.stored s ws) a v := by
    intro ws
    induction ws with
    | nil => intro s; rfl
    | cons p ws ih => intro s; obtain ⟨b, w⟩ := p; simp only [List.cons_append, Machine.stored]; exact ih _
  rw [e]
  exact After.write hp h h'

@[simp] theorem stored_params (ws : List (Word × Byte)) (s : State) : (stored s ws).params = s.params := by
  induction ws generalizing s with
  | nil => rfl
  | cons p ws ih => obtain ⟨b, w⟩ := p; simp only [stored, ih, writeEffect_params]

/-- The memory side after several writes depends on the memory side before them. -/
theorem stored_congr {s t : State} (hp : t.params = s.params) (hq : t.port = s.port) (hr : t.ram = s.ram)
    (hc : t.colour = s.colour) (hs : settings t = settings s) (ws : List (Word × Byte)) :
    (stored t ws).ram = (stored s ws).ram ∧ (stored t ws).colour = (stored s ws).colour ∧
      (stored t ws).port = (stored s ws).port ∧ settings (stored t ws) = settings (stored s ws) := by
  induction ws generalizing s t with
  | nil => exact ⟨hr, hc, hq, hs⟩
  | cons p ws ih =>
    obtain ⟨a, v⟩ := p
    have c := writeEffect_congr hp hq hr hc hs a v
    exact ih ((writeEffect_params t a v).trans (hp.trans (writeEffect_params s a v).symm)) c.2.2.1 c.1 c.2.1 c.2.2.2

/-- A stretch of reads, then one that writes. -/
theorem After.thenStored {s t u : State} {ws : List (Word × Byte)} {r r' : Regs} {ops ops' : List Transfer}
    (h : After s s t r ops) (h' : After t (Machine.stored t ws) u r' ops') :
    After s (Machine.stored s ws) u r' (ops ++ ops') := by
  have c := stored_congr h.params h.port h.ram h.colour h.settings ws
  exact (h.comp h').retarget c.1.symm c.2.1.symm c.2.2.1.symm c.2.2.2.symm

/-- Reads after a stretch that wrote. -/
theorem After.thenRead {s e t u : State} {r r' : Regs} {ops ops' : List Transfer} (h : After s e t r ops)
    (h' : After t t u r' ops') : After s e u r' (ops ++ ops') :=
  (h.comp h').retarget h.ram.symm h.colour.symm h.port.symm h.settings.symm

/-- What a read sees after a stretch that wrote. -/
theorem After.seen {s e t : State} {r : Regs} {ops : List Transfer} (hp : e.params = s.params) (h : After s e t r ops)
    (a : Word) (ha : plainAt e a = true) : plainAt t a = true ∧ Machine.peek t a = Machine.peek e a :=
  ⟨(plainAt_congr (h.params.trans hp.symm) h.port a).trans ha,
    peek_congr (h.params.trans hp.symm) h.port h.ram a ha⟩

/-! ### Implied, immediate, relative -/

section
variable {s : State}

theorem implied_spec (f : Regs → Regs) (h : NoReset s) :
    Does (implied f) s fun _ t => ∃ d, After s s t (f s.regs) [rd s.regs.pc d] :=
  Does.look ((lastRead_spec h).mono fun _ _ ⟨d, p⟩ => ⟨d, p.1⟩)

theorem immediate_run (f : Regs → Regs) (s : State) : run (immediate f) s = .next { s with regs := f s.regs } := rfl

theorem dummyPc_spec (h : NoReset s) : Does dummyPc s fun _ t => ∃ d, After s s t s.regs [rd s.regs.pc d] :=
  Does.look (dummyCycle_spec h)

theorem branch_not_taken {c : Flags → Bool} (off : Byte) (h : c s.regs.p = false) : run (branch c off) s = .next s := by
  simp [run, branch, Bus.live, h]

theorem branch_taken_spec {c : Flags → Bool} (off : Byte) (h : NoReset s) (hc : c s.regs.p = true) :
    Does (branch c off) s fun _ t =>
      if hiByte (s.regs.pc + sext16 off) = hiByte s.regs.pc then
        ∃ d, After s s t { s.regs with pc := s.regs.pc + sext16 off } [rd s.regs.pc d]
      else
        ∃ d e, After s s t { s.regs with pc := s.regs.pc + sext16 off }
          [rd s.regs.pc d, rd (word (hiByte s.regs.pc) (loByte (s.regs.pc + sext16 off))) e] := by
  refine Does.look ?_
  rw [if_pos hc]
  refine Does.look ?_
  simp only [branchTarget]
  by_cases hp : hiByte (s.regs.pc + sext16 off) = hiByte s.regs.pc
  · simp only [hp, if_true]
    exact (lastRead_spec h).mono fun _ t ⟨d, p⟩ => ⟨d, p.1⟩
  · simp only [hp, if_false]
    refine (dummyCycle_spec h).bind fun _ t ⟨d, a⟩ => (lastRead_spec a.noReset).mono fun _ u ⟨e, p⟩ => ⟨d, e, ?_⟩
    have b := a.andThen p.1
    rw [a.regs] at b
    exact b

/-! ### Stack -/

theorem pushThen_spec (v : Regs → Byte) (f : Regs → Regs) (h : NoReset s) :
    Does (pushThen v f) s fun _ t =>
      After s (writeEffect s (stackAt s.regs.s) (v s.regs)) t (f { s.regs with s := s.regs.s - 1 })
        [wr (stackAt s.regs.s) (v s.regs)] :=
  Does.look (writeCycle_spec h)

theorem push_spec (v : Regs → Byte) (h : NoReset s) :
    Does (push v) s fun _ t =>
      After s (writeEffect s (stackAt s.regs.s) (v s.regs)) t { s.regs with s := s.regs.s - 1 }
        [wr (stackAt s.regs.s) (v s.regs)] := pushThen_spec v _ h

theorem pullDummy_spec (h : NoReset s) :
    Does pullDummy s fun _ t => ∃ d, After s s t { s.regs with s := s.regs.s + 1 } [rd (stackAt s.regs.s) d] :=
  Does.look ((lastRead_spec h).mono fun _ _ ⟨d, p⟩ => ⟨d, p.1⟩)

theorem pullNext_spec (f : Byte → Regs → Regs) (h : NoReset s) :
    Does (pullNext f) s fun v t =>
      After s s t { f v s.regs with s := s.regs.s + 1 } [rd (stackAt s.regs.s) v] ∧ v = peek s (stackAt s.regs.s) :=
  Does.look ((readCycle_spec h).mono fun _ _ p => ⟨p.1, p.2 (plainAt_stack _ _)⟩)

theorem pullLast_spec (f : Byte → Regs → Regs) (h : NoReset s) :
    Does (pullLast f) s fun v t =>
      After s s t (f v s.regs) [rd (stackAt s.regs.s) v] ∧ v = peek s (stackAt s.regs.s) :=
  Does.look ((readCycle_spec h).mono fun _ _ p => ⟨p.1, p.2 (plainAt_stack _ _)⟩)

/-- PHA and PHP (R352, R353). -/
theorem pushRow_spec (v : Regs → Byte) (h : NoReset s) :
    Does (pushRow v) s fun _ t => ∃ d,
      After s (stored s [(stackAt s.regs.s, v s.regs)]) t { s.regs with s := s.regs.s - 1 }
        [rd s.regs.pc d, wr (stackAt s.regs.s) (v s.regs)] :=
  (dummyPc_spec h).bind fun _ t ⟨d, a⟩ => (push_spec v a.noReset).mono fun _ u b => ⟨d, by
    rw [a.regs] at b
    exact a.write rfl b⟩

/-- PLA and PLP (R354, R355). -/
theorem pullRow_spec (f : Byte → Regs → Regs) (h : NoReset s) :
    Does (pullRow f) s fun _ t => ∃ d e,
      After s s t (f (peek s (stackAt (s.regs.s + 1))) { s.regs with s := s.regs.s + 1 })
        [rd s.regs.pc d, rd (stackAt s.regs.s) e,
          rd (stackAt (s.regs.s + 1)) (peek s (stackAt (s.regs.s + 1)))] := by
  refine (dummyPc_spec h).bind fun _ t ⟨d, a⟩ => (pullDummy_spec a.noReset).bind fun _ u ⟨e, b⟩ =>
    (pullLast_spec f b.noReset).bind fun v w ⟨c, hv⟩ => Does.done ⟨d, e, ?_⟩
  have ab := a.andThen b
  rw [a.regs] at ab
  have abc := ab.andThen c
  rw [b.regs, a.regs] at abc hv
  rw [ab.peek _ (plainAt_stack _ _)] at hv
  rw [← hv]
  exact abc

/-- `Fetch()` (R17). -/
theorem fetchByte_spec (h : NoReset s) :
    Does fetchByte s fun v t => After s s t { s.regs with pc := s.regs.pc + 1 } [rd s.regs.pc v] ∧
      (plainAt s s.regs.pc = true → v = peek s s.regs.pc) := Does.look (readCycle_spec h)

/-! ### Exceptions -/

theorem loadVector_spec (v : Word) (h : NoReset s) :
    Does (loadVector v) s fun _ t => ∃ l m, VectorAt s v l m ∧
      After s s t { s.regs with pc := word m l } [rd v l, rd (v + 1) m] := by
  refine (readByte_spec h).bind fun l t ⟨a, p⟩ => (lastRead_spec a.noReset).mono fun _ u ⟨m, b, q⟩ => ?_
  refine ⟨l, m, ⟨p, fun hp => ?_⟩, by have c := a.andThen b; rw [a.regs] at c; exact c⟩
  rw [q ((a.plain _).trans hp), a.peek _ hp]

theorem VectorAt.after {s t : State} {r : Regs} {ops : List Transfer} {v : Word} {l m : Byte} {ws : List (Word × Byte)}
    (h : After s s t r ops) (p : VectorAt (stored t ws) v l m) : VectorAt (stored s ws) v l m := by
  have c := stored_congr h.params h.port h.ram h.colour h.settings ws
  have hp : (stored t ws).params = (stored s ws).params := by simp [h.params]
  refine ⟨fun ha => ?_, fun ha => ?_⟩
  · rw [p.1 ((plainAt_congr hp c.2.2.1 _).trans ha), peek_congr hp c.2.2.1 c.1 _ ha]
  · rw [p.2 ((plainAt_congr hp c.2.2.1 _).trans ha), peek_congr hp c.2.2.1 c.1 _ ha]

theorem byte_sub_sub (x : Byte) : x - 1 - 1 = x - 2 := by
  revert x; decide

theorem byte_sub_sub' (x : Byte) : x - 2 - 1 = x - 3 := by
  revert x; decide

theorem byte_add_add (x : Byte) : x + 1 + 1 = x + 2 := by
  revert x; decide

theorem byte_add_add' (x : Byte) : x + 2 + 1 = x + 3 := by
  revert x; decide

/-- Taking an exception (R465, R553). -/
theorem takeException_spec (b : Bool) (v : Word) (h : NoReset s) :
    Does (takeException b v) s fun _ t => ∃ l m, VectorAt (stored s (exceptionFrame s.regs b)) v l m ∧
      After s (stored s (exceptionFrame s.regs b)) t
        { s.regs with s := s.regs.s - 3, pc := word m l, p := { s.regs.p with i := true } }
        [wr (stackAt s.regs.s) (hiByte s.regs.pc), wr (stackAt (s.regs.s - 1)) (loByte s.regs.pc),
          wr (stackAt (s.regs.s - 2)) (pImage b s.regs.p), rd v l, rd (v + 1) m] := by
  refine (push_spec _ h).bind fun _ t1 a1 => (push_spec _ a1.noReset).bind fun _ t2 a2 =>
    (pushThen_spec _ _ a2.noReset).bind fun _ t3 a3 => (loadVector_spec v a3.noReset).mono fun _ t4 ⟨l, m, p, a4⟩ => ?_
  rw [a1.regs] at a2
  rw [a2.regs] at a3
  rw [a3.regs] at a4
  have b1 : After s (stored s [(stackAt s.regs.s, hiByte s.regs.pc)]) t1 _ _ := a1
  have b2 := After.stored (stored_params _ _) b1 a2
  have b3 := After.stored (stored_params _ _) b2 a3
  have b4 := b3.thenRead a4
  simp only [byte_sub_sub, byte_sub_sub'] at b3 b4
  refine ⟨l, m, ⟨fun hp => ?_, fun hp => ?_⟩, b4⟩
  · have q := b3.seen (stored_params _ _) v hp
    rw [p.1 q.1, q.2]; rfl
  · have q := b3.seen (stored_params _ _) (v + 1) hp
    rw [p.2 q.1, q.2]; rfl

/-- The interrupt sequence (R553). -/
theorem interruptSequence_spec (v : Word) (h : NoReset s) :
    Does (interruptSequence v) s fun _ t => ∃ d e l m, VectorAt (stored s (exceptionFrame s.regs false)) v l m ∧
      After s (stored s (exceptionFrame s.regs false)) t
        { s.regs with s := s.regs.s - 3, pc := word m l, p := { s.regs.p with i := true } }
        [rd s.regs.pc d, rd s.regs.pc e, wr (stackAt s.regs.s) (hiByte s.regs.pc),
          wr (stackAt (s.regs.s - 1)) (loByte s.regs.pc),
          wr (stackAt (s.regs.s - 2)) (pImage false s.regs.p), rd v l, rd (v + 1) m] := by
  refine (dummyPc_spec h).bind fun _ t1 ⟨d, a1⟩ => (dummyPc_spec a1.noReset).bind fun _ t2 ⟨e, a2⟩ =>
    (takeException_spec false v a2.noReset).mono fun _ t3 ⟨l, m, p, a3⟩ => ⟨d, e, l, m, ?_⟩
  rw [a1.regs] at a2
  rw [a2.regs] at a3 p
  have b := a1.andThen a2
  exact ⟨p.after b, b.thenStored a3⟩

/-- Returning from an exception (R464). -/
theorem returnFromException_spec (h : NoReset s) :
    Does returnFromException s fun _ t => ∃ e,
      After s s t
        { s.regs with
          s := s.regs.s + 3, p := Flags.ofByte (peek s (stackAt (s.regs.s + 1)))
          pc := word (peek s (stackAt (s.regs.s + 3))) (peek s (stackAt (s.regs.s + 2))) }
        [rd (stackAt s.regs.s) e, rd (stackAt (s.regs.s + 1)) (peek s (stackAt (s.regs.s + 1))),
          rd (stackAt (s.regs.s + 2)) (peek s (stackAt (s.regs.s + 2))),
          rd (stackAt (s.regs.s + 3)) (peek s (stackAt (s.regs.s + 3)))] := by
  refine (pullDummy_spec h).bind fun _ t1 ⟨e, a1⟩ => (pullNext_spec _ a1.noReset).bind fun v2 t2 ⟨a2, h2⟩ =>
    (pullNext_spec _ a2.noReset).bind fun v3 t3 ⟨a3, h3⟩ => (pullLast_spec _ a3.noReset).bind fun v4 t4 ⟨a4, h4⟩ =>
    Does.done ⟨e, ?_⟩
  rw [a1.peek _ (plainAt_stack _ _), a1.regs] at h2
  rw [a1.regs] at a2
  have b2 := a1.andThen a2
  rw [b2.peek _ (plainAt_stack _ _), a2.regs] at h3
  rw [a2.regs] at a3
  have b3 := b2.andThen a3
  rw [b3.peek _ (plainAt_stack _ _), a3.regs] at h4
  rw [a3.regs] at a4
  have b4 := b3.andThen a4
  simp only [byte_add_add, byte_add_add'] at h2 h3 h4 b4
  subst h2 h3 h4
  exact b4

/-! ### Jumps and subroutines -/

theorem busJmpInd_spec (lo hi : Byte) (h : NoReset s) :
    Does (busJmpInd lo hi) s fun _ t => ∃ l m,
      (plainAt s (word hi lo) = true → l = peek s (word hi lo)) ∧
      (plainAt s (word hi (lo + 1)) = true → m = peek s (word hi (lo + 1))) ∧
      After s s t { s.regs with pc := word m l } [rd (word hi lo) l, rd (word hi (lo + 1)) m] := by
  have e : pointerHi (word hi lo) = word hi (lo + 1) := by simp [pointerHi]
  refine (readByte_spec h).bind fun l t ⟨a, p⟩ => ?_
  rw [e]
  refine (lastRead_spec a.noReset).mono fun _ u ⟨m, b, q⟩ => ⟨l, m, p, fun hp => ?_, ?_⟩
  · rw [q ((a.plain _).trans hp), a.peek _ hp]
  · have c := a.andThen b
    rw [a.regs] at c
    exact c

theorem busJmpAbs_spec (lo : Byte) (h : NoReset s) :
    Does (busJmpAbs lo) s fun _ t => ∃ m, (plainAt s s.regs.pc = true → m = peek s s.regs.pc) ∧
      After s s t { s.regs with pc := word m lo } [rd s.regs.pc m] :=
  Does.look ((lastRead_spec h).mono fun _ _ ⟨m, a, p⟩ => ⟨m, p, a⟩)

theorem busJsrAbs_spec (lo : Byte) (h : NoReset s) :
    Does (busJsrAbs lo) s fun _ t => ∃ d m,
      (plainAt s s.regs.pc = true → m = peek (stored s [(stackAt s.regs.s, hiByte s.regs.pc),
        (stackAt (s.regs.s - 1), loByte s.regs.pc)]) s.regs.pc) ∧
      After s (stored s [(stackAt s.regs.s, hiByte s.regs.pc), (stackAt (s.regs.s - 1), loByte s.regs.pc)]) t
        { s.regs with s := s.regs.s - 2, pc := word m lo }
        [rd (stackAt s.regs.s) d, wr (stackAt s.regs.s) (hiByte s.regs.pc),
          wr (stackAt (s.regs.s - 1)) (loByte s.regs.pc), rd s.regs.pc m] := by
  refine (Does.look (dummyCycle_spec h)).bind fun _ t1 ⟨d, a1⟩ => (push_spec _ a1.noReset).bind fun _ t2 a2 =>
    (push_spec _ a2.noReset).bind fun _ t3 a3 => (busJmpAbs_spec lo a3.noReset).mono fun _ t4 ⟨m, p, a4⟩ => ⟨d, m, ?_⟩
  rw [a1.regs] at a2
  rw [a2.regs] at a3
  rw [a3.regs] at a4 p
  have b1 : After t1 (stored t1 [(stackAt s.regs.s, hiByte s.regs.pc)]) t2 _ _ := a2
  have b2 := a1.thenStored (After.stored (stored_params _ _) b1 a3)
  have b4 := b2.thenRead a4
  simp only [byte_sub_sub] at b2 b4
  refine ⟨fun hp => ?_, b4⟩
  have e : plainAt (stored s [(stackAt s.regs.s, hiByte s.regs.pc), (stackAt (s.regs.s - 1), loByte s.regs.pc)])
      s.regs.pc = true := by
    rw [← hp]
    apply plainAt_congr (stored_params _ _)
    simp [stored, writeEffect_stack]
  have q := b2.seen (stored_params _ _) _ e
  rw [p q.1, q.2]
  rfl

theorem busRts_spec (h : NoReset s) :
    Does busRts s fun _ t => ∃ d e x,
      After s s t
        { s.regs with
          s := s.regs.s + 2
          pc := word (peek s (stackAt (s.regs.s + 2))) (peek s (stackAt (s.regs.s + 1))) + 1 }
        [rd s.regs.pc d, rd (stackAt s.regs.s) e, rd (stackAt (s.regs.s + 1)) (peek s (stackAt (s.regs.s + 1))),
          rd (stackAt (s.regs.s + 2)) (peek s (stackAt (s.regs.s + 2))),
          rd (word (peek s (stackAt (s.regs.s + 2))) (peek s (stackAt (s.regs.s + 1)))) x] := by
  refine (dummyPc_spec h).bind fun _ t0 ⟨d, a0⟩ => (pullDummy_spec a0.noReset).bind fun _ t1 ⟨e, a1⟩ =>
    (pullNext_spec _ a1.noReset).bind fun v2 t2 ⟨a2, h2⟩ => (pullLast_spec _ a2.noReset).bind fun v3 t3 ⟨a3, h3⟩ =>
    (lastRead_spec a3.noReset).mono fun _ t4 ⟨x, a4, _⟩ => ⟨d, e, x, ?_⟩
  rw [a0.regs] at a1
  have b1 := a0.andThen a1
  rw [b1.peek _ (plainAt_stack _ _), a1.regs] at h2
  rw [a1.regs] at a2
  have b2 := b1.andThen a2
  rw [b2.peek _ (plainAt_stack _ _), a2.regs] at h3
  rw [a2.regs] at a3
  have b3 := b2.andThen a3
  rw [a3.regs] at a4
  have b4 := b3.andThen a4
  simp only [byte_add_add] at h2 h3 b4
  subst h2 h3
  exact b4

theorem busRti_spec (h : NoReset s) :
    Does busRti s fun _ t => ∃ d e,
      After s s t
        { s.regs with
          s := s.regs.s + 3, p := Flags.ofByte (peek s (stackAt (s.regs.s + 1)))
          pc := word (peek s (stackAt (s.regs.s + 3))) (peek s (stackAt (s.regs.s + 2))) }
        [rd s.regs.pc d, rd (stackAt s.regs.s) e, rd (stackAt (s.regs.s + 1)) (peek s (stackAt (s.regs.s + 1))),
          rd (stackAt (s.regs.s + 2)) (peek s (stackAt (s.regs.s + 2))),
          rd (stackAt (s.regs.s + 3)) (peek s (stackAt (s.regs.s + 3)))] := by
  refine (dummyPc_spec h).bind fun _ t0 ⟨d, a0⟩ => (returnFromException_spec a0.noReset).mono fun _ t1 ⟨e, a1⟩ =>
    ⟨d, e, ?_⟩
  simp only [a0.regs, a0.peek _ (plainAt_stack s _)] at a1
  exact a0.andThen a1

theorem busBrk_spec (h : NoReset s) :
    Does busBrk s fun _ t => ∃ d l m,
      VectorAt (stored s (exceptionFrame { s.regs with pc := s.regs.pc + 1 } true)) 0xFFFE l m ∧
      After s (stored s (exceptionFrame { s.regs with pc := s.regs.pc + 1 } true)) t
        { s.regs with s := s.regs.s - 3, pc := word m l, p := { s.regs.p with i := true } }
        [rd s.regs.pc d, wr (stackAt s.regs.s) (hiByte (s.regs.pc + 1)),
          wr (stackAt (s.regs.s - 1)) (loByte (s.regs.pc + 1)),
          wr (stackAt (s.regs.s - 2)) (pImage true s.regs.p), rd 0xFFFE l, rd 0xFFFF m] := by
  refine (fetchByte_spec h).bind fun d t0 ⟨a0, _⟩ => (takeException_spec true vectorIrq a0.noReset).mono
    fun _ t1 ⟨l, m, p, a1⟩ => ⟨d, l, m, ?_⟩
  rw [a0.regs] at a1 p
  have e : vectorIrq + 1 = 0xFFFF := by decide
  rw [e] at a1
  exact ⟨p.after a0, a0.thenStored a1⟩

/-! ### The reset sequence -/

/-- The stack pointers and addresses of the reset sequence (R571). -/
theorem reset_stack : word 0x01 0 = 0x0100 ∧ word 0x01 (0 - 1) = 0x01FF ∧ word 0x01 (0 - 1 - 1) = 0x01FE ∧
    (0 - 1 - 1 - 1 : Byte) = 0xFD ∧ (0xFFFC + 1 : Word) = 0xFFFD := by decide


theorem resetPush_spec (h : NoReset s) :
    Does resetPush s fun _ t => ∃ d, After s s t { s.regs with s := s.regs.s - 1 } [rd (stackAddr s.regs) d] :=
  Does.look ((lastRead_spec h).mono fun _ _ ⟨d, p⟩ => ⟨d, p.1⟩)

/-- The bus cycles of the reset sequence, from the registers that its entry leaves (R571). -/
theorem resetSequence_spec {pc : Word} (hr : s.regs = Regs.reset pc) (h : NoReset s) :
    Does resetSequence s fun _ t => ∃ d e f g k l m, VectorAt s 0xFFFC l m ∧
      After s s t { a := 0, x := 0, y := 0, s := 0xFD, pc := word m l, p := Flags.reset }
        [rd pc d, rd pc e, rd 0x0100 f, rd 0x01FF g, rd 0x01FE k, rd 0xFFFC l, rd 0xFFFD m] := by
  refine (dummyPc_spec h).bind fun _ t1 ⟨d, a1⟩ => (dummyPc_spec a1.noReset).bind fun _ t2 ⟨e, a2⟩ =>
    (resetPush_spec a2.noReset).bind fun _ t3 ⟨f, a3⟩ => (resetPush_spec a3.noReset).bind fun _ t4 ⟨g, a4⟩ =>
    (resetPush_spec a4.noReset).bind fun _ t5 ⟨k, a5⟩ => (loadVector_spec _ a5.noReset).mono
    fun _ t6 ⟨l, m, p, a6⟩ => ⟨d, e, f, g, k, l, m, ?_⟩
  rw [hr] at a1
  rw [a1.regs] at a2
  rw [a2.regs] at a3
  rw [a3.regs] at a4
  rw [a4.regs] at a5
  rw [a5.regs] at a6
  have b := ((((a1.andThen a2).andThen a3).andThen a4).andThen a5)
  have q : VectorAt s vectorReset l m := p.after (ws := []) b
  refine ⟨q, ?_⟩
  have c := b.andThen a6
  simp only [Regs.reset, stackAddr, vectorReset, List.cons_append, List.nil_append,
    reset_stack] at c
  exact c

/-! ### Fetch -/

/-- A state that differs only in `micro` comes after the same. -/
theorem After.enter {s e t : State} {r : Regs} {ops : List Transfer} (q : Seq)
    (h : After (Machine.enter q s) e t r ops) : After s e t r ops :=
  ⟨h.regs, h.transfers, h.ram, h.colour, h.port, h.settings, h.params, h.status, h.resetPending, h.taken, h.noReset⟩

theorem NoReset.enter (q : Seq) (h : NoReset s) : NoReset (Machine.enter q s) := h

theorem word_add_one_one (w : Word) : w + 1 + 1 = w + 2 := by
  rw [BitVec.add_assoc]; rfl

theorem operandFetches_le : ∀ op : Byte, operandFetches op ≤ 2 := by decide

/-- An operand byte that the fetch leaves to the instruction does not matter. -/
theorem exec_decodeParts (op b1 b2 : Byte) (s : State) :
    exec (decodeParts op (if 0 < operandFetches op then b1 else 0) (if 1 < operandFetches op then b2 else 0)) s =
      exec (decodeParts op b1 b2) s := by
  have h : ∀ n, n < 256 → ∀ op : Byte, op = BitVec.ofNat 8 n →
      exec (decodeParts op (if 0 < operandFetches op then b1 else 0) (if 1 < operandFetches op then b2 else 0)) s =
        exec (decodeParts op b1 b2) s := by
    intro n hn op e
    interval_cases n <;> (subst e; rfl)
  exact h op.toNat op.isLt op (by simp)

/-- The fetch (R285): what was read, and the instruction it decodes to. -/
theorem fetchInstr_spec (h : NoReset s) :
    Does fetchInstr s fun i t => ∃ op b1 b2,
      i = decodeParts op (if 0 < operandFetches op then b1 else 0) (if 1 < operandFetches op then b2 else 0) ∧
      After s s t { s.regs with pc := s.regs.pc + 1 + BitVec.ofNat 16 (operandFetches op) }
        ([rd s.regs.pc op, rd (s.regs.pc + 1) b1, rd (s.regs.pc + 2) b2].take (1 + operandFetches op)) ∧
      (plainAt s s.regs.pc = true → op = peek s s.regs.pc) ∧
      (plainAt s (s.regs.pc + 1) = true → b1 = peek s (s.regs.pc + 1)) ∧
      (plainAt s (s.regs.pc + 2) = true → b2 = peek s (s.regs.pc + 2)) := by
  refine (fetchByte_spec h).bind fun op t0 ⟨a0, p0⟩ => ?_
  have r := operandFetches_le op
  match hn : operandFetches op with
  | 0 =>
    exact Does.done ⟨op, peek s (s.regs.pc + 1), peek s (s.regs.pc + 2), by simp [hn], by simpa [hn] using a0, p0,
      fun _ => rfl, fun _ => rfl⟩
  | 1 =>
    refine (fetchByte_spec a0.noReset).bind fun b1 t1 ⟨a1, p1⟩ => Does.done
      ⟨op, b1, peek s (s.regs.pc + 2), by simp [hn], ?_, p0, fun hp => ?_, fun _ => rfl⟩
    · rw [a0.regs] at a1
      simpa [hn] using a0.andThen a1
    · rw [a0.regs] at p1
      rw [p1 ((a0.plain _).trans hp), a0.peek _ hp]
  | 2 =>
    refine (fetchByte_spec a0.noReset).bind fun b1 t1 ⟨a1, p1⟩ => (fetchByte_spec a1.noReset).bind
      fun b2 t2 ⟨a2, p2⟩ => Does.done ⟨op, b1, b2, by simp [hn], ?_, p0, fun hp => ?_, fun hp => ?_⟩
    · rw [a0.regs] at a1
      rw [a1.regs] at a2
      have b := (a0.andThen a1).andThen a2
      simp only [word_add_one_one] at b
      simpa [hn, BitVec.add_assoc] using b
    · rw [a0.regs] at p1
      rw [p1 ((a0.plain _).trans hp), a0.peek _ hp]
    · have b := a0.andThen a1
      rw [a1.regs, a0.regs, word_add_one_one] at p2
      rw [p2 ((b.plain _).trans hp), b.peek _ hp]
  | n + 3 => omega

end

end Sys2Proof.Machine
end

