-- ==== Sys2Proof/Laws/Invariant.lean ====
section
/-! SUPPORT. What the invariant needs of each phase of the master cycle, and that every bus cycle keeps it. -/

namespace Sys2Proof.Machine

/-! ### The VIC -/

/-- The position and the line lengths, which only the last step of the tick changes. -/
def Vic.shape (v : Vic) : Nat × Nat × Nat × Nat := (v.x, v.y, v.vmLine.length, v.gLine.length)

@[simp] theorem Vic.latchIrq_shape (v : Vic) (i : Nat) : (v.latchIrq i).shape = v.shape := rfl
@[simp] theorem Vic.startFrame_shape (v : Vic) : v.startFrame.shape = v.shape := by
  unfold Vic.startFrame; split <;> rfl
@[simp] theorem Vic.rasterCompare_shape (v : Vic) : v.rasterCompare.shape = v.shape := by
  unfold Vic.rasterCompare; split <;> rfl
@[simp] theorem Vic.latchDen_shape (v : Vic) : v.latchDen.shape = v.shape := by
  unfold Vic.latchDen; split <;> rfl
@[simp] theorem Vic.display_shape (v : Vic) : v.display.shape = v.shape := by
  unfold Vic.display; split <;> rfl
@[simp] theorem Vic.spriteRules_shape (v : Vic) : v.spriteRules.shape = v.shape := rfl
@[simp] theorem Vic.counters_shape (v : Vic) : v.counters.shape = v.shape := by
  unfold Vic.counters
  simp only []
  repeat' first | rfl | split
@[simp] theorem Vic.gAccess_shape (v : Vic) (w : VicView) : (v.gAccess w).shape = v.shape := by
  unfold Vic.gAccess
  split
  · split <;> simp [Vic.shape]
  · rfl
@[simp] theorem Vic.cAccess_shape (v : Vic) (w : VicView) : (v.cAccess w).shape = v.shape := by
  unfold Vic.cAccess
  split
  · simp [Vic.shape]
  · rfl
@[simp] theorem Vic.accesses_shape (v : Vic) (w : VicView) : (v.accesses w).shape = v.shape := by
  have e : ∀ (v : Vic) (o : Oct Sprite), ({ v with sprites := o } : Vic).shape = v.shape := fun _ _ => rfl
  simp only [Vic.accesses, e, Vic.cAccess_shape, Vic.gAccess_shape]
@[simp] theorem Vic.fetchSteps_shape (v : Vic) (w : VicView) : (v.fetchSteps w).shape = v.shape := by
  simp [Vic.fetchSteps]
@[simp] theorem Vic.verticalBorder_shape (v : Vic) : v.verticalBorder.shape = v.shape := by
  unfold Vic.verticalBorder
  split
  · rfl
  · split <;> rfl

/-- Nothing after the BA step changes BA or `ba_low_count`. -/
def Vic.late (v : Vic) : (Nat × Nat × Nat × Nat) × Nat × Bool := (v.shape, v.baLowCount, v.baPrev)

@[simp] theorem Vic.latchIrq_late (v : Vic) (i : Nat) : (v.latchIrq i).late = v.late := rfl
@[simp] theorem Vic.verticalBorder_late (v : Vic) : v.verticalBorder.late = v.late := by
  unfold Vic.verticalBorder
  split
  · rfl
  · split <;> rfl
@[simp] theorem Vic.border_late (v : Vic) (X : Nat) : (v.border X).late = v.late := by
  unfold Vic.border
  by_cases h : X = v.rightX
  · simp only [h, if_true]
    split
    · split
      · simp; rfl
      · exact (Vic.verticalBorder_late _)
    · rfl
  · simp only [h, if_false]
    split
    · split
      · simp
      · exact (Vic.verticalBorder_late _)
    · rfl
@[simp] theorem Vic.collide_late (v : Vic) (m : Byte) (fg : Bool) : (v.collide m fg).late = v.late := by
  unfold Vic.collide
  simp only []
  repeat' first | rfl | split
@[simp] theorem Vic.pixel_late (v : Vic) (X : Nat) : (v.pixel X).1.late = v.late := by
  have e : ∀ (v : Vic) (o : Oct Sprite), ({ v with sprites := o } : Vic).late = v.late := fun _ _ => rfl
  unfold Vic.pixel
  dsimp only
  split
  · rw [Vic.collide_late, e, Vic.border_late]
  · exact Vic.border_late v X
theorem Vic.pixelRow_late (p : Params) (n px : Nat) (v : Vic) (cell : BitVec 32) :
    (Vic.pixelRow p n px v cell).1.late = v.late := by
  induction n generalizing px v cell with
  | zero => rfl
  | succ n ih => simp only [Vic.pixelRow]; rw [ih, Vic.pixel_late]
@[simp] theorem Vic.pixels_late (v : Vic) (p : Params) : (v.pixels p).1.late = v.late := by
  unfold Vic.pixels
  rw [Vic.pixelRow_late]
  split <;> simp
@[simp] theorem Vic.lightPen_late (v : Vic) (p : Params) (l : Bool) : (v.lightPen p l).late = v.late := by
  unfold Vic.lightPen
  dsimp only
  split <;> rfl

theorem Vic.registers_of_settings {u v : Vic} (h : u.settings = v.settings) :
    u.cr1 = v.cr1 ∧ u.cr2 = v.cr2 ∧ u.memPtr = v.memPtr :=
  have h1 := congrArg (fun x : Vic => x.cr1) h
  have h2 := congrArg (fun x : Vic => x.cr2) h
  have h3 := congrArg (fun x : Vic => x.memPtr) h
  ⟨h1, h2, h3⟩

theorem Vic.stepBa_late (v : Vic) (p : Params) :
    (v.stepBa p).shape = v.shape ∧ (v.stepBa p).baLowCount ≤ 3 := by
  refine ⟨rfl, ?_⟩
  unfold Vic.stepBa
  dsimp only
  split <;> omega

theorem Vic.shape_eq {u v : Vic} (h : u.shape = v.shape) :
    u.x = v.x ∧ u.y = v.y ∧ u.vmLine.length = v.vmLine.length ∧ u.gLine.length = v.gLine.length := by
  simpa [Vic.shape] using h

theorem Vic.advance_wf (u v : Vic) (p : Params) (h : v.Wf p) (hs : u.shape = v.shape) (hb : u.baLowCount ≤ 3)
    (hr : u.settings = v.settings) : (u.advance p).1.Wf p := by
  obtain ⟨h1, h2, h3, h4⟩ := Vic.shape_eq hs
  obtain ⟨k1, k2, k3⟩ := Vic.registers_of_settings hr
  have hx := h.x
  have hy := h.y
  have c1 := k1 ▸ h.cr1
  have c2 := k2 ▸ h.cr2
  have c3 := k3 ▸ h.memPtr
  have l1 := h3.trans h.vmLine
  have l2 := h4.trans h.gLine
  unfold Vic.advance
  split
  · exact ⟨by assumption, by dsimp only; omega, l1, l2, hb, c1, c2, c3⟩
  · split
    · exact ⟨by dsimp only; omega, by assumption, l1, l2, hb, c1, c2, c3⟩
    · exact ⟨by dsimp only; omega, by dsimp only; omega, l1, l2, hb, c1, c2, c3⟩

theorem Vic.tick_wf (v : Vic) (w : VicView) (h : v.Wf w.params) : (v.tick w).vic.Wf w.params := by
  have b := Vic.stepBa_late (v.fetchSteps w) w.params
  have s8 : ((v.fetchSteps w).stepBa w.params).settings = v.settings := by
    rw [Vic.stepBa_settings, Vic.fetchSteps_settings]
  rw [Vic.fetchSteps_shape] at b
  simp only [Vic.tick]
  generalize (v.fetchSteps w).stepBa w.params = v8 at b s8 ⊢
  have l := Vic.pixels_late v8 w.params
  have s9 := Vic.pixels_settings v8 w.params
  generalize (v8.pixels w.params).1 = v9 at l s9 ⊢
  have l2 := Vic.lightPen_late v9 w.params w.lightPen
  have s10 := Vic.lightPen_settings v9 w.params w.lightPen
  generalize v9.lightPen w.params w.lightPen = v10 at l2 s10 ⊢
  have e := l2.trans l
  simp only [Vic.late, Prod.mk.injEq] at e
  exact Vic.advance_wf v10 v w.params h (e.1.trans b.1) (e.2.1 ▸ b.2) (s10.trans (s9.trans s8))

theorem and_7f_bit7 : ∀ b : Byte, bit (b &&& 0x7F) 7 = false := by decide
theorem and_3f_lt : ∀ b : Byte, (b &&& 0x3F).toNat < 64 := by decide
theorem and_fe_bit0 : ∀ b : Byte, bit (b &&& 0xFE) 0 = false := by decide
theorem and_ef_bit4 : ∀ b : Byte, bit (b &&& 0xEF) 4 = false := by decide

/-- A register write changes neither the position nor a line length. -/
theorem Vic.write_late (v : Vic) (r : Nat) (b : Byte) : (v.write r b).late = v.late := by
  unfold Vic.write
  split
  · rfl
  · split
    · split
      · unfold Vic.writeColour; split <;> rfl
      · rfl
    · split <;> rfl

theorem Vic.write_wf (v : Vic) (p : Params) (r : Nat) (b : Byte) (h : v.Wf p) : (v.write r b).Wf p := by
  have hl := Vic.write_late v r b
  simp only [Vic.late, Vic.shape, Prod.mk.injEq] at hl
  obtain ⟨⟨h1, h2, h3, h4⟩, h5, _⟩ := hl
  have k : bit (v.write r b).cr1 7 = false ∧ (v.write r b).cr2.toNat < 64 ∧ bit (v.write r b).memPtr 0 = false := by
    have h6 := h.cr1
    have h7 := h.cr2
    have h8 := h.memPtr
    unfold Vic.write
    split
    · exact ⟨h6, h7, h8⟩
    · split
      · split
        · unfold Vic.writeColour; split <;> exact ⟨h6, h7, h8⟩
        · exact ⟨h6, h7, h8⟩
      · split
        all_goals first
          | exact ⟨h6, h7, h8⟩
          | exact ⟨and_7f_bit7 b, h7, h8⟩
          | exact ⟨h6, and_3f_lt b, h8⟩
          | exact ⟨h6, h7, and_fe_bit0 b⟩
  exact ⟨by rw [h1]; exact h.x, by rw [h2]; exact h.y, by rw [h3]; exact h.vmLine, by rw [h4]; exact h.gLine,
    by rw [h5]; exact h.ba, k.1, k.2.1, k.2.2⟩

theorem Vic.readEffect_wf (v : Vic) (p : Params) (r : Nat) (h : v.Wf p) : (v.readEffect r).Wf p := by
  unfold Vic.readEffect
  split
  · exact ⟨h.x, h.y, h.vmLine, h.gLine, h.ba, h.cr1, h.cr2, h.memPtr⟩
  · exact ⟨h.x, h.y, h.vmLine, h.gLine, h.ba, h.cr1, h.cr2, h.memPtr⟩
  · exact h

@[simp] theorem Vic.readEffect_irqOut (v : Vic) (r : Nat) : (v.readEffect r).irqOut = v.irqOut := by
  unfold Vic.readEffect; split <;> rfl

/-- Only $D019 and $D01A change the interrupt line (R725). -/
theorem Vic.write_irqOut (v : Vic) (r : Nat) (b : Byte) (h : ¬(r = 0x19 ∨ r = 0x1A)) :
    (v.write r b).irqOut = v.irqOut := by
  unfold Vic.write
  split
  · rfl
  · split
    · split
      · unfold Vic.writeColour; split <;> rfl
      · rfl
    · split <;> first | rfl | exact absurd (Or.inl rfl) h | exact absurd (Or.inr rfl) h

/-! ### The CIAs -/

theorem bit4_of_high {a b : Byte} (h : a &&& 0xFE = b &&& 0xFE) : bit a 4 = bit b 4 := by
  have e : ∀ x : Byte, bit (x &&& 0xFE) 4 = bit x 4 := by decide
  rw [← e a, h, e b]

theorem Cia.tick_wf (c : Cia) (p : CiaPins) (h : c.Wf) : (c.tick p).Wf := by
  have hs := Cia.tick_settings c p
  refine ⟨?_, ?_⟩
  · rw [bit4_of_high (congrArg Cia.cra hs : (c.tick p).cra &&& 0xFE = c.cra &&& 0xFE)]; exact h.cra
  · rw [bit4_of_high (congrArg Cia.crb hs : (c.tick p).crb &&& 0xFE = c.crb &&& 0xFE)]; exact h.crb

theorem Cia.todWrite_wf (c : Cia) (r : Nat) (v : Byte) (h : c.Wf) : (c.todWrite r v).Wf := by
  have e : ∀ c : Cia, c.Wf → c.alarmCheck.Wf := by
    intro c h
    unfold Cia.alarmCheck Cia.event
    split
    · exact ⟨h.cra, h.crb⟩
    · exact h
  unfold Cia.todWrite
  apply e
  split
  · exact ⟨h.cra, h.crb⟩
  · dsimp only
    split <;> exact ⟨h.cra, h.crb⟩

theorem Cia.write_wf (c : Cia) (r : Nat) (v : Byte) (h : c.Wf) : (c.write r v).Wf := by
  unfold Cia.write
  split
  all_goals first
    | exact Cia.todWrite_wf c _ v h
    | exact ⟨h.cra, h.crb⟩
    | exact ⟨and_ef_bit4 v, h.crb⟩
    | exact ⟨h.cra, and_ef_bit4 v⟩

theorem Cia.readEffect_wf (c : Cia) (r : Nat) (h : c.Wf) : (c.readEffect r).Wf := by
  unfold Cia.readEffect
  split <;> exact ⟨h.cra, h.crb⟩

/-! ### The phases -/

/-- The part of the invariant that holds in the middle of a master cycle too. -/
structure Sound (s : State) : Prop where
  ram : Memory.wf 0x10000 s.ram = true
  ramInit : Memory.wf 0x10000 s.params.ramInit = true
  colour : Memory.wf 0x400 s.colour = true
  nibbles : Memory.nibbles s.colour = true
  underPort0 : Memory.read s.ram 0 = Memory.read s.params.ramInit 0
  underPort1 : Memory.read s.ram 1 = Memory.read s.params.ramInit 1
  vic : s.vic.Wf s.params
  cia1 : s.cia1.Wf
  cia2 : s.cia2.Wf
  irqVic : s.pins.irqVic = s.vic.irqOut

theorem Inv.sound {s : State} (h : Inv s) : Sound s :=
  ⟨h.ram, h.ramInit, h.colour, h.nibbles, h.underPort0, h.underPort1, h.vic, h.cia1, h.cia2, h.irqVic⟩

theorem Sound.cpuView {s : State} (h : Sound s) : Sound (cpuView s) :=
  ⟨h.ram, h.ramInit, h.colour, h.nibbles, h.underPort0, h.underPort1,
    Vic.tick_wf (inputPhase s).vic (vicView (inputPhase s)) h.vic, h.cia1, h.cia2, rfl⟩

theorem Sound.ioReadEffect {s : State} (h : Sound s) (t : IoTarget) : Sound (ioReadEffect s t) := by
  cases t with
  | vic r =>
    exact ⟨h.ram, h.ramInit, h.colour, h.nibbles, h.underPort0, h.underPort1, Vic.readEffect_wf _ _ _ h.vic, h.cia1,
      h.cia2, h.irqVic.trans (Vic.readEffect_irqOut _ _).symm⟩
  | cia1 r =>
    exact ⟨h.ram, h.ramInit, h.colour, h.nibbles, h.underPort0, h.underPort1, h.vic, Cia.readEffect_wf _ _ h.cia1,
      h.cia2, by
        show (if r = 13 then { s.pins with irqCia1 := false } else s.pins).irqVic = _
        split <;> exact h.irqVic⟩
  | cia2 r =>
    exact ⟨h.ram, h.ramInit, h.colour, h.nibbles, h.underPort0, h.underPort1, h.vic, h.cia1,
      Cia.readEffect_wf _ _ h.cia2, by
        show (if r = 13 then { s.pins with nmiCia2 := false } else s.pins).irqVic = _
        split <;> exact h.irqVic⟩
  | sid r => exact h
  | colour i => exact h
  | expansion => exact h

theorem Sound.readEffect {s : State} (h : Sound s) (a : Word) : Sound (readEffect s a) := by
  unfold Machine.readEffect
  split
  · exact h
  · split <;> first | exact h | exact h.ioReadEffect _

theorem ioTarget_colour {n i : Nat} (h : ioTarget n = .colour i) : i < 0x400 := by
  unfold ioTarget at h
  split at h <;> first | (injection h with h; omega) | cases h

theorem Sound.ioWrite {s : State} (h : Sound s) (n : Nat) (v : Byte) : Sound (ioWrite s (ioTarget n) v) := by
  cases ht : ioTarget n with
  | vic r =>
    refine ⟨h.ram, h.ramInit, h.colour, h.nibbles, h.underPort0, h.underPort1, Vic.write_wf _ _ _ _ h.vic, h.cia1,
      h.cia2, ?_⟩
    show (if r = 0x19 ∨ r = 0x1A then { s.pins with irqVic := (s.vic.write r v).irqOut } else s.pins).irqVic =
      (s.vic.write r v).irqOut
    split
    · rfl
    · rename_i hr
      rw [Vic.write_irqOut _ _ _ hr]; exact h.irqVic
  | cia1 r =>
    exact ⟨h.ram, h.ramInit, h.colour, h.nibbles, h.underPort0, h.underPort1, h.vic, Cia.write_wf _ _ _ h.cia1,
      h.cia2, by
        show (if r = 13 then { s.pins with irqCia1 := (s.cia1.write r v).line } else s.pins).irqVic = _
        split <;> exact h.irqVic⟩
  | cia2 r =>
    exact ⟨h.ram, h.ramInit, h.colour, h.nibbles, h.underPort0, h.underPort1, h.vic, h.cia1,
      Cia.write_wf _ _ _ h.cia2, by
        show (if r = 13 then { s.pins with nmiCia2 := (s.cia2.write r v).line } else s.pins).irqVic = _
        split <;> exact h.irqVic⟩
  | sid r =>
    exact ⟨h.ram, h.ramInit, h.colour, h.nibbles, h.underPort0, h.underPort1, h.vic, h.cia1, h.cia2, h.irqVic⟩
  | colour i =>
    exact ⟨h.ram, h.ramInit, Memory.wf_write h.colour (ioTarget_colour ht) _,
      Memory.nibbles_write (and_0f_lt v) h.nibbles, h.underPort0, h.underPort1, h.vic, h.cia1, h.cia2, h.irqVic⟩
  | expansion => exact h

theorem Sound.ramWrite {s : State} (h : Sound s) {a : Word} (h0 : a ≠ 0) (h1 : a ≠ 1) (v : Byte) :
    Sound (ramWrite s a v) := by
  have g := word_gt_one h0 h1
  refine ⟨Memory.wf_write h.ram a.isLt v, h.ramInit, h.colour, h.nibbles, ?_, ?_, h.vic, h.cia1, h.cia2, h.irqVic⟩
  · show Memory.read (Memory.write s.ram a.toNat v) 0 = _
    rw [Memory.read_write h.ram, if_neg (by omega)]; exact h.underPort0
  · show Memory.read (Memory.write s.ram a.toNat v) 1 = _
    rw [Memory.read_write h.ram, if_neg (by omega)]; exact h.underPort1

theorem Sound.writeEffect {s : State} (h : Sound s) (a : Word) (v : Byte) : Sound (writeEffect s a v) := by
  have hp : ∀ q : Port, Sound { s with port := q } := fun _ =>
    ⟨h.ram, h.ramInit, h.colour, h.nibbles, h.underPort0, h.underPort1, h.vic, h.cia1, h.cia2, h.irqVic⟩
  unfold Machine.writeEffect
  by_cases h0 : a = 0
  · rw [if_pos h0]; exact hp _
  · rw [if_neg h0]
    by_cases h1 : a = 1
    · rw [if_pos h1]; exact hp _
    · rw [if_neg h1]
      split
      all_goals try split
      all_goals first | exact h.ramWrite h0 h1 v | exact h | exact h.ioWrite _ v

theorem Sound.busPhase {s : State} (h : Sound s) (op : BusOp) (upd : Byte → Regs → Regs) :
    Sound (busPhase op upd s).2 := by
  have g : Sound (access op s).2 := by
    cases op with
    | read a => exact ⟨(h.readEffect a).ram, (h.readEffect a).ramInit, (h.readEffect a).colour,
        (h.readEffect a).nibbles, (h.readEffect a).underPort0, (h.readEffect a).underPort1, (h.readEffect a).vic,
        (h.readEffect a).cia1, (h.readEffect a).cia2, (h.readEffect a).irqVic⟩
    | write a v => exact ⟨(h.writeEffect a v).ram, (h.writeEffect a v).ramInit, (h.writeEffect a v).colour,
        (h.writeEffect a v).nibbles, (h.writeEffect a v).underPort0, (h.writeEffect a v).underPort1,
        (h.writeEffect a v).vic, (h.writeEffect a v).cia1, (h.writeEffect a v).cia2, (h.writeEffect a v).irqVic⟩
  exact ⟨g.ram, g.ramInit, g.colour, g.nibbles, g.underPort0, g.underPort1, g.vic, g.cia1, g.cia2, g.irqVic⟩

/-- The device phases bring the rest of the invariant back. -/
theorem Sound.devicePhases {s : State} (h : Sound s) (ha : s.audio.length = s.cycle)
    (ht : s.ticks.length ≤ s.cycle + 1) : Inv (devicePhases s) := by
  have e : ∀ u : State, Inv { u with cycle := u.cycle + 1 } → ∀ v w, Inv { u with video := v, inputs := w, cycle := u.cycle + 1 } :=
    fun u k v w => ⟨k.ram, k.ramInit, k.colour, k.nibbles, k.underPort0, k.underPort1, k.vic, k.cia1, k.cia2,
      k.irqCia1, k.nmiCia2, k.irqVic, k.audio, k.ticks⟩
  have k : Inv { sidPhase (cia2Phase (cia1Phase (tapePhase s))) with
      cycle := (sidPhase (cia2Phase (cia1Phase (tapePhase s)))).cycle + 1 } := by
    constructor
    · simpa using h.ram
    · simpa using h.ramInit
    · simpa using h.colour
    · simpa using h.nibbles
    · simpa using h.underPort0
    · simpa using h.underPort1
    · simpa using h.vic
    · have : (tapePhase s).cia1.Wf := by simpa using h.cia1
      exact Cia.tick_wf _ _ this
    · have : (tapePhase s).cia2.Wf := by simpa using h.cia2
      exact Cia.tick_wf _ _ this
    · rfl
    · rfl
    · have : (tapePhase s).pins.irqVic = (tapePhase s).vic.irqOut := by simpa using h.irqVic
      exact this
    · show (tapePhase s).audio.length + 1 = (tapePhase s).cycle + 1
      simpa using ha
    · show (tapePhase s).ticks.length ≤ (tapePhase s).cycle + 1
      simpa using ht
  unfold Machine.devicePhases endPhase
  dsimp only
  split
  · exact e _ k _ _
  · exact k

/-! ### Ticks of the bus -/

@[simp] theorem access_ticks (op : BusOp) (s : State) : (access op s).2.ticks = s.ticks := by
  cases op <;> simp [access, memRead, memWrite]
@[simp] theorem access_audio (op : BusOp) (s : State) : (access op s).2.audio = s.audio := by
  cases op <;> simp [access, memRead, memWrite]
@[simp] theorem access_cycle (op : BusOp) (s : State) : (access op s).2.cycle = s.cycle := by
  cases op <;> simp [access, memRead, memWrite]

theorem reset_lines : false = Cia.reset.line ∧ false = Vic.reset.irqOut := by decide

theorem Inv.resetAll {s : State} (h : Inv s) : Inv (resetAll s) := by
  have c0 : Cia.reset.Wf := ⟨by decide, by decide⟩
  refine ⟨h.ramInit, h.ramInit, colourInit_wf h.ramInit, colourInit_nibbles _, rfl, rfl, ?_, c0, c0,
    reset_lines.1, reset_lines.1, reset_lines.2, h.audio, h.ticks⟩
  have r : ∀ p : Params, Vic.reset.Wf p := by
    intro p
    refine ⟨?_, ?_, rfl, rfl, Nat.zero_le _, by decide, by decide, by decide⟩
    · show 0 < cyclesPerLine p.model
      cases p.model <;> decide
    · show 0 < linesPerFrame p.model
      cases p.model <;> decide
  exact r s.params

theorem Inv.masterCycle {s : State} (h : Inv s) (force : Bool) (op : BusOp) (upd : Byte → Regs → Regs) :
    Inv (masterCycle force op upd s).state := by
  have hv := h.sound.cpuView
  have ha : (cpuView s).audio.length = (cpuView s).cycle := by simpa using h.audio
  have hk : (cpuView s).ticks.length ≤ (cpuView s).cycle := by simpa using h.ticks
  have d : Inv (devicePhases (if force || granted op (cpuView s) then busPhase op upd (cpuView s)
      else (0, stallPhase (cpuView s))).2) := by
    split
    · refine (hv.busPhase op upd).devicePhases ?_ ?_
      · simpa [busPhase] using ha
      · simpa [busPhase] using hk
    · refine Sound.devicePhases ⟨hv.ram, hv.ramInit, hv.colour, hv.nibbles, hv.underPort0, hv.underPort1, hv.vic,
        hv.cia1, hv.cia2, hv.irqVic⟩ ha (by show (cpuView s).ticks.length ≤ (cpuView s).cycle + 1; omega)
  unfold Machine.masterCycle
  dsimp only
  split
  · exact d.resetAll
  · exact d

/-! ### Whole sequences -/

/-- `P` is kept, whichever way the bus cycles end. -/
def Kept {α : Type} (P : State → Prop) : BusResult α → Prop
  | .ok _ t => P t
  | .error _ t => P t

/-- `P` is kept by the sequence, whichever way it ends. -/
def Keeps {α : Type} (P : State → Prop) (m : Bus α) : Prop := ∀ s, P s → Kept P (m.live s)

theorem Keeps.bind {α β : Type} {P : State → Prop} {m : Bus α} {k : α → Bus β} (h : Keeps P m)
    (hk : ∀ a, Keeps P (k a)) : Keeps P (m.bind k) := by
  intro s hs
  have e := h s hs
  rw [Bus.live_bind]
  cases he : m.live s with
  | ok a t => rw [he] at e; exact hk a t e
  | error a t => rw [he] at e; exact e

theorem Keeps.look {β : Type} {P : State → Prop} {k : Regs → Bus β} (hk : ∀ r, Keeps P (k r)) :
    Keeps P (.look k) := fun s hs => hk s.regs s hs

theorem Keeps.done {α : Type} {P : State → Prop} (a : α) : Keeps P (.done a : Bus α) := fun _ hs => hs

/-- What every master cycle keeps, every bus cycle keeps. -/
theorem busCycle_kept {P : State → Prop}
    (h : ∀ s, P s → ∀ force op upd, P (masterCycle force op upd s).state) (op : BusOp) (upd : Byte → Regs → Regs)
    {s : State} (hs : P s) : Kept P (busCycle op upd s) := by
  have g : ∀ n s, P s → Kept P (busLoop op upd n s) := by
    intro n
    induction n with
    | zero =>
      intro s hs
      simp only [busLoop]
      split <;> exact h s hs true op upd
    | succ n ih =>
      intro s hs
      have e := h s hs false op upd
      simp only [busLoop]
      split
      · exact e
      · split
        · exact e
        · exact ih _ e
  exact g stallFuel s hs

/-- A bus cycle, then the rest. -/
theorem Keeps.cycle {α : Type} {P : State → Prop}
    (h : ∀ s, P s → ∀ force op upd, P (masterCycle force op upd s).state) {op : BusOp} {upd : Byte → Regs → Regs}
    {k : Byte → Bus α} (hk : ∀ v, Keeps P (k v)) : Keeps P (.cycle op upd k) := by
  intro s hs
  have e := busCycle_kept h op upd hs
  simp only [Bus.live]
  cases he : busCycle op upd s with
  | ok v t => rw [he] at e; exact hk v t e
  | error a t => rw [he] at e; exact e

end Sys2Proof.Machine
end

