-- ==== Sys2Proof/Laws/Steady.lean ====
section
/-! SUPPORT. What a step can do, said once: every step is master cycles with changes of the CPU's registers and
latches between them (`step_keeps`, `stepCycle_keeps`).  Each invariant then needs two small facts only. -/

namespace Sys2Proof.Machine

/-- The meaning of an instruction is its bus cycles, run to the end; a refused opcode has none. -/
theorem exec_busOf (i : Instr) (s : State) :
    exec i s = match busOf i with
      | some m => run m s
      | none => .refused (.refusedOpcode i.opcode) := by
  cases i <;> rfl

/-- A property that a master cycle keeps and that does not look at the CPU's registers and latches. -/
structure Steady (P : State → Prop) : Prop where
  cycle : ∀ s, P s → ∀ force op upd, P (masterCycle force op upd s).state
  cpu : ∀ (s : State) (r : Regs) (l : Latches), P s → P { s with regs := r, latches := l }

section
variable {P : State → Prop} (h : Steady P)
include h

theorem Steady.regs (s : State) (r : Regs) (p : P s) : P { s with regs := r } := h.cpu s r s.latches p

theorem Steady.latches (s : State) (l : Latches) (p : P s) : P { s with latches := l } := h.cpu s s.regs l p

/-- Every sequence of bus cycles keeps a steady property: it is nothing else than master cycles and changes of the
registers. -/
theorem Steady.bus {α : Type} (m : Bus α) : Keeps P m := by
  induction m with
  | done a => exact Keeps.done a
  | look k ih => exact Keeps.look ih
  | set f k ih => exact fun s p => ih _ (h.regs s _ p)
  | cycle op upd k ih => exact Keeps.cycle h.cycle ih

theorem run_keeps (m : Bus Unit) {s t : State} (p : P s) (e : run m s = .next t) : P t := by
  have k := h.bus m s p
  unfold run at e
  cases he : m.live s <;> simp only [he, Host.Outcome.next.injEq] at e <;> rw [he] at k <;> exact e ▸ k

theorem finish_keeps {o : Host.Outcome State Fault Refusal} {t : State} (ho : ∀ u, o = .next u → P u)
    (e : finishOutcome o = .next t) : P t := by
  unfold finishOutcome at e
  split at e
  · rename_i u
    injection e with e
    exact e ▸ h.latches u _ (ho u rfl)
  · cases e
  · cases e

/-- Every meaning is a bus sequence, or refuses. -/
theorem exec_keeps (i : Instr) {s t : State} (p : P s) (e : exec i s = .next t) : P t := by
  rw [exec_busOf] at e
  cases hb : busOf i with
  | none => rw [hb] at e; cases e
  | some m => rw [hb] at e; exact run_keeps h m p e

theorem ending_keeps {o : Option Byte} {s t : State} (p : P s) (e : ending o s = .next t) : P t := by
  cases o with
  | none => injection e with e; exact e ▸ h.latches s _ p
  | some op => cases e

theorem runBoundary_keeps {s t : State} (p : P s) (e : runBoundary s = .next t) : P t := by
  unfold runBoundary at e
  split at e
  · exact finish_keeps h (fun u hu => run_keeps h _ (h.cpu s _ _ p) hu) e
  · split at e
    · exact finish_keeps h (fun u hu => run_keeps h _ (h.latches s _ p) hu) e
    · split at e
      · exact finish_keeps h (fun u hu => run_keeps h _ (h.latches s _ p) hu) e
      · unfold runInstruction at e
        have k := h.bus fetchInstr (enter .instruction s) (h.latches s _ p)
        cases he : fetchInstr.live (enter .instruction s) with
        | ok i u =>
          rw [he] at e k
          exact finish_keeps h (fun w hw => exec_keeps h i k hw) e
        | error a u =>
          rw [he] at e k
          injection e with e
          exact e ▸ k

theorem resume_keeps {s t : State} (p : P s) (e : resume s = .next t) : P t := by
  unfold resume at e
  have k := h.bus (rest s).1 s p
  cases he : (rest s).1.live s with
  | ok o u => rw [he] at e k; exact ending_keeps h k e
  | error a u => rw [he] at e k; injection e with e; exact e ▸ k

/-- Whatever a step did, a steady property still holds. -/
theorem step_keeps {s t : State} (p : P s) (e : step s = .next t) : P t := by
  unfold step stepInstruction at e
  split at e
  · cases e
  · split at e
    · exact resume_keeps h p e
    · split at e
      · exact runBoundary_keeps h p e
      · injection e with e
        exact e ▸ p

theorem settle_keeps {s t : State} (p : P s) (e : settle s = .next t) : P t := by
  unfold settle at e
  dsimp only at e
  split at e
  · exact ending_keeps h (h.regs s _ p) e
  all_goals injection e with e; exact e ▸ h.regs s _ p

theorem cycleOn_keeps {s t : State} (p : P s) (e : cycleOn s = .next t) : P t := by
  unfold cycleOn at e
  dsimp only at e
  split at e
  · split at e
    · injection e with e; exact e ▸ h.cycle s p _ _ _
    · exact settle_keeps h (h.cycle s p _ _ _) e
  all_goals exact settle_keeps h p e

theorem recognise_keeps {s : State} (p : P s) : P (recognise s) := by
  unfold recognise
  split
  · exact h.cpu s _ _ p
  · split
    · exact h.latches s _ p
    · split <;> exact h.latches s _ p

/-- Whatever a master cycle did, a steady property still holds. -/
theorem stepCycle_keeps {s t : State} (p : P s) (e : stepCycle s = .next t) : P t := by
  unfold stepCycle at e
  split at e
  · cases e
  · split at e
    · exact cycleOn_keeps h p e
    · split at e
      · exact cycleOn_keeps h (recognise_keeps h p) e
      · injection e with e
        exact e ▸ p

end

end Sys2Proof.Machine
end

