-- ==== Sys2Proof/Laws/Cycles.lean ====
section
/-! SUPPORT. `step_instruction()` is `step_cycle()` repeated up to the next boundary (64_clock_bus.md R787), from a
boundary or from the middle of an instruction (R788). -/

namespace Sys2Proof.Machine

/-! ### Taking up a sequence again -/

/-- One more byte moved: the sequence goes on from its next bus cycle. -/
theorem Bus.advance_snoc {α : Type} (m : Bus α) (r : Regs) (l : List Byte) (v : Byte) {op : BusOp}
    {upd : Byte → Regs → Regs} {k : Byte → Bus α} {r' : Regs} (h : m.advance r l = (.cycle op upd k, r')) :
    m.advance r (l ++ [v]) = (k v).advance (upd v r') [] := by
  induction m generalizing r l with
  | done a => simp [Bus.advance] at h
  | look f ih => exact ih _ _ _ h
  | set f m ih => exact ih _ _ h
  | cycle op' upd' f ih =>
    cases l with
    | nil =>
      simp only [Bus.advance, Prod.mk.injEq, Bus.cycle.injEq] at h
      obtain ⟨⟨rfl, rfl, rfl⟩, rfl⟩ := h
      rfl
    | cons w l => exact ih _ _ _ h

/-- Going to the next bus cycle first makes no difference. -/
theorem Bus.live_advance {α : Type} (m : Bus α) (s : State) :
    (m.advance s.regs []).1.live { s with regs := (m.advance s.regs []).2 } = m.live s := by
  induction m generalizing s with
  | done a => rfl
  | look f ih => exact ih _ s
  | set f m ih => exact ih { s with regs := f s.regs }
  | cycle op upd f ih => rfl

theorem Bus.advance_idem {α : Type} (m : Bus α) (r : Regs) (l : List Byte) :
    (m.advance r l).1.advance (m.advance r l).2 [] = m.advance r l := by
  induction m generalizing r l with
  | done a => rfl
  | look f ih => exact ih _ _ _
  | set f m ih => exact ih _ _
  | cycle op upd f ih =>
    cases l with
    | nil => rfl
    | cons w l => exact ih _ _ _

/-- A state in the middle of a sequence that `settle` leaves alone has the registers the sequence stands at. -/
theorem settle_regs {s : State} (hm : atBoundary s = false) (h : settle s = .next s) : (rest s).2 = s.regs := by
  have e : ∀ t : State, (Host.Outcome.next { s with regs := (rest s).2 } : Host.Outcome State Fault Refusal) = .next t →
      t.regs = (rest s).2 := by
    intro t ht
    injection ht with ht
    rw [← ht]
  unfold settle at h
  dsimp only at h
  split at h
  · rename_i o _
    cases o with
    | none =>
      injection h with h
      rw [← h] at hm
      cases hm
    | some op => cases h
  all_goals exact (e s h).symm

/-- A sequence that CPU-RESET cuts short ends in a reset state, which is at a boundary and finished. -/
theorem busLoop_error {op : BusOp} {upd : Byte → Regs → Regs} {n : Nat} {s t : State} {e : Abort}
    (h : busLoop op upd n s = .error e t) : ∃ u, t = resetAll u := by
  induction n generalizing s with
  | zero =>
    simp only [busLoop] at h
    split at h
    · rename_i hr
      injection h with _ h
      subst h
      unfold masterCycle at hr ⊢
      exact ⟨_, if_pos hr⟩
    · cases h
  | succ n ih =>
    simp only [busLoop] at h
    split at h
    · rename_i hr
      injection h with _ h
      subst h
      unfold masterCycle at hr ⊢
      exact ⟨_, if_pos hr⟩
    · split at h
      · cases h
      · exact ih h

theorem live_error {α : Type} {m : Bus α} {s t : State} {e : Abort} (h : m.live s = .error e t) :
    ∃ u, t = resetAll u := by
  induction m generalizing s with
  | done a => cases h
  | look f ih => exact ih _ h
  | set f m ih => exact ih h
  | cycle op upd f ih =>
    simp only [Bus.live] at h
    cases hb : busCycle op upd s with
    | ok v u => rw [hb] at h; exact ih v h
    | error e' u =>
      rw [hb] at h
      injection h with _ h
      subst h
      exact busLoop_error hb

/-! ### The end of a sequence -/

/-- The outcome of a sequence that has been run to its end. -/
def fin (r : BusResult (Option Byte)) : Host.Outcome State Fault Refusal :=
  match r with
  | .ok o t => ending o t
  | .error _ t => .next t

theorem finishOutcome_run (m : Bus Unit) (s : State) :
    finishOutcome (run m s) = fin ((m.bind fun _ => .done none).live s) := by
  rw [Bus.live_bind]
  unfold run
  cases h : m.live s with
  | ok a t => rfl
  | error e t => obtain ⟨u, rfl⟩ := live_error h; rfl

theorem finishOutcome_exec (i : Instr) (s : State) : finishOutcome (exec i s) = fin ((instrBody i).live s) := by
  rw [exec_busOf]
  unfold instrBody
  cases busOf i with
  | some m => exact finishOutcome_run m s
  | none => rfl

/-- What happens at a boundary is the body of what is recognised there, run to its end. -/
theorem runBoundary_eq (s : State) :
    runBoundary s = fin ((recognise s).latches.micro.seq.body.live (recognise s)) := by
  unfold runBoundary recognise
  split
  · exact finishOutcome_run _ _
  · split
    · exact finishOutcome_run _ _
    · split
      · exact finishOutcome_run _ _
      · show runInstruction _ = fin ((fetchInstr.bind instrBody).live _)
        rw [Bus.live_bind]
        unfold runInstruction
        cases h : fetchInstr.live (enter .instruction s) with
        | ok i t => exact finishOutcome_exec i t
        | error e t => rfl

/-! ### Master cycles up to a boundary -/

/-- Within `n` master cycles the CPU has the bus for this operation, or CPU-RESET falls. -/
def Granted (op : BusOp) (upd : Byte → Regs → Regs) : Nat → State → Prop
  | 0, _ => False
  | n + 1, s =>
    (masterCycle false op upd s).reset = true ∨ (masterCycle false op upd s).done = true ∨
      Granted op upd n (masterCycle false op upd s).state

/-- The outcome `o` of a master cycle, and then at most `n` more up to a boundary. -/
def goOn (n : Nat) (o : Host.Outcome State Fault Refusal) : Host.Outcome State Fault Refusal :=
  match o with
  | .next t => if atBoundary t then .next t else cyclesToBoundary n t
  | .fault r => .fault r
  | .refused r => .refused r

theorem cyclesToBoundary_succ (n : Nat) (s : State) : cyclesToBoundary (n + 1) s = goOn n (stepCycle s) := rfl

/-- A master cycle leaves the CPU's side alone while the CPU is stalled. -/
theorem masterCycle_stalled {op : BusOp} {upd : Byte → Regs → Regs} {s : State}
    (hr : (masterCycle false op upd s).reset = false) (hd : (masterCycle false op upd s).done = false) :
    (masterCycle false op upd s).state.regs = s.regs ∧
      (masterCycle false op upd s).state.latches.micro = s.latches.micro := by
  rw [masterCycle_stall hr hd]
  constructor
  · simp
  · simp [stallPhase, cpuView, detectEdges]

/-- A master cycle in which the CPU has the bus updates the registers and records the byte moved. -/
theorem masterCycle_done {op : BusOp} {upd : Byte → Regs → Regs} {s : State}
    (hr : (masterCycle false op upd s).reset = false) (hd : (masterCycle false op upd s).done = true) :
    (masterCycle false op upd s).state.regs = upd (masterCycle false op upd s).value s.regs ∧
      (masterCycle false op upd s).state.latches.micro =
        { s.latches.micro with moved := s.latches.micro.moved ++ [(masterCycle false op upd s).value] } := by
  unfold masterCycle at *
  dsimp only at *
  rw [Bool.false_or] at hd
  simp only [hr, hd, Bool.or_true, if_true, Bool.false_eq_true, if_false]
  constructor
  · cases op <;> simp [busPhase, access]
  · cases op <;> simp [busPhase, access, cpuView, detectEdges]

/-- A machine that was built stays so. -/
theorem masterCycle_built {force : Bool} {op : BusOp} {upd : Byte → Regs → Regs} {s : State}
    (h : notBuilt s = false) : notBuilt (masterCycle force op upd s).state = false := by
  have hh : s.status.halted = false := by
    unfold notBuilt at h
    simpa using (Bool.or_eq_false_iff.mp h).1
  have hs : (masterCycle force op upd s).state.status = s.status ∧ 0 < (masterCycle force op upd s).state.cycle := by
    unfold masterCycle
    dsimp only
    constructor
    · split <;> split <;> cases op <;> simp [busPhase, access]
    · split
      · show 0 < (devicePhases _).cycle
        simp
      · simp
  unfold notBuilt
  rw [hs.1, hh]
  have : decide ((masterCycle force op upd s).state.cycle = 0) = false := by simpa using by omega
  rw [this]
  rfl

/-- Where the master cycles can stop: at a boundary, or before a bus cycle of an instruction or a sequence. -/
def Resumable (s : State) : Prop := atBoundary s = true ∨ settle s = .next s

theorem resumable_of_rest {s : State} (h : rest s = ((rest s).1, s.regs)) (hn : ∀ o, (rest s).1 ≠ .done o) :
    Resumable s := by
  have e : (rest s).2 = s.regs := by rw [h]
  right
  unfold settle
  dsimp only
  split
  · rename_i o ho
    exact absurd ho (hn o)
  all_goals rw [e]

theorem settle_resumable {s t : State} (h : settle s = .next t) : Resumable t := by
  have e : ∀ u : State, u.latches = s.latches → u.regs = (rest s).2 → (∀ o, (rest s).1 ≠ .done o) → Resumable u := by
    intro u hl hr hn
    have e1 : rest u = rest s := by unfold rest; rw [hl]
    exact resumable_of_rest (by rw [e1, hr]) (by rw [e1]; exact hn)
  unfold settle at h
  dsimp only at h
  split at h
  · rename_i o _
    cases o with
    | none => injection h with h; subst h; exact Or.inl rfl
    | some op => cases h
  all_goals
    rename_i ho
    injection h with h
    subst h
    exact e _ rfl rfl (by rw [ho]; intro o; exact fun hh => by cases hh)

/-- A snapshot can be resumed whenever it is taken (R788): master cycles lead from states where they can stop to states
where they can stop. -/
theorem stepCycle_resumable {s t : State} (hs : Resumable s) (h : stepCycle s = .next t) : Resumable t := by
  have on : ∀ u, (rest u).2 = u.regs → cycleOn u = .next t → Resumable t := by
    intro u hu h
    unfold cycleOn at h
    dsimp only at h
    split at h
    · rename_i op upd k ho
      split at h
      · rename_i hc
        injection h with h
        subst h
        by_cases hr : (masterCycle false op upd u).reset = true
        · left
          unfold masterCycle at hr ⊢
          show atBoundary (if _ then _ else _) = true
          rw [if_pos hr]
          rfl
        · have hr' : (masterCycle false op upd u).reset = false := by simpa using hr
          have hd' : (masterCycle false op upd u).done = false := by simpa [hr'] using hc
          have a := masterCycle_stalled hr' hd'
          have e : rest (masterCycle false op upd u).state = rest u := by unfold rest; rw [a.2]
          refine resumable_of_rest (by rw [e, a.1, ← hu]) (fun o => ?_)
          rw [e, ho]
          exact fun hh => by cases hh
      · exact settle_resumable h
    all_goals exact settle_resumable h
  unfold stepCycle at h
  split at h
  · cases h
  · split at h
    · rename_i hb
      have hb' : atBoundary s = false := by simpa using hb
      refine on s (settle_regs hb' (hs.resolve_left (by simp [hb']))) h
    · split at h
      · refine on (recognise s) ?_ h
        unfold recognise
        split
        · rfl
        · split
          · rfl
          · split <;> rfl
      · injection h with h
        exact h ▸ hs

section
variable {P : State → Prop}

/-- From the end of a bus cycle on, master cycles up to a boundary do what running the rest of the sequence to its end
does. -/
theorem cycles_live (h : Steady P) (hg : ∀ op upd u, P u → Granted op upd stallFuel u) (m : Bus (Option Byte))
    (t : State) (p : P t) (hb : notBuilt t = false) (hm : atBoundary t = false) (hr : rest t = m.advance t.regs []) :
    ∃ n, ∀ j, goOn (n + j) (settle t) = fin (m.live t) := by
  induction m generalizing t with
  | done a =>
    refine ⟨0, fun j => ?_⟩
    have e : settle t = ending a t := by unfold settle; rw [hr]; rfl
    rw [e]
    cases a <;> rfl
  | look f ih => exact ih _ t p hb hm hr
  | set f m ih => exact ih { t with regs := f t.regs } (h.regs t _ p) hb hm hr
  | cycle op upd f ih =>
    have e : settle t = .next t := by unfold settle; rw [hr]; rfl
    rw [e]
    show ∃ n, ∀ j, (if atBoundary t = true then _ else cyclesToBoundary (n + j) t) = _
    simp only [hm, Bool.false_eq_true, if_false]
    have g := hg op upd t p
    have step : ∀ (t : State), notBuilt t = false → atBoundary t = false → rest t = (Bus.cycle op upd f, t.regs) →
        ∀ n, cyclesToBoundary (n + 1) t = goOn n (if (masterCycle false op upd t).reset ||
          !(masterCycle false op upd t).done then .next (masterCycle false op upd t).state
          else settle (masterCycle false op upd t).state) := by
      intro t hb hm hr n
      rw [cyclesToBoundary_succ]
      congr 1
      unfold stepCycle cycleOn
      simp only [hb, hm, hr, Bool.not_false, Bool.false_eq_true, if_false, if_true]
    have key : ∀ (fuel : Nat) (t : State), P t → notBuilt t = false → atBoundary t = false →
        rest t = (Bus.cycle op upd f, t.regs) → Granted op upd fuel t → ∃ n, ∀ j, cyclesToBoundary (n + j) t =
          fin (match busLoop op upd fuel t with
            | .ok v t => (f v).live t
            | .error e t => .error e t) := by
      intro fuel
      induction fuel with
      | zero => intro t _ _ _ _ g; cases g
      | succ fuel ihf =>
        intro t p hb hm hr g
        simp only [busLoop]
        by_cases hR : (masterCycle false op upd t).reset = true
        · refine ⟨1, fun j => ?_⟩
          rw [Nat.add_comm, step t hb hm hr]
          simp only [hR, Bool.true_or, if_true]
          obtain ⟨u, hu⟩ : ∃ u, (masterCycle false op upd t).state = resetAll u := by
            unfold masterCycle at hR ⊢
            exact ⟨_, if_pos hR⟩
          rw [hu]
          rfl
        · have hR' : (masterCycle false op upd t).reset = false := by simpa using hR
          by_cases hD : (masterCycle false op upd t).done = true
          · have a := masterCycle_done hR' hD
            have hr' : rest (masterCycle false op upd t).state =
                (f (masterCycle false op upd t).value).advance (masterCycle false op upd t).state.regs [] := by
              unfold rest
              rw [a.2, a.1]
              exact Bus.advance_snoc _ _ _ _ hr
            have hm' : atBoundary (masterCycle false op upd t).state = false := by
              unfold atBoundary at hm ⊢
              rw [a.2]
              exact hm
            obtain ⟨n, hn⟩ := ih _ _ (h.cycle t p _ _ _) (masterCycle_built hb) hm' hr'
            refine ⟨n + 1, fun j => ?_⟩
            rw [Nat.add_right_comm, step t hb hm hr]
            simp only [hR', hD, Bool.not_true, Bool.or_false, Bool.false_eq_true, if_false, if_true]
            exact hn j
          · have hD' : (masterCycle false op upd t).done = false := by simpa using hD
            have a := masterCycle_stalled hR' hD'
            have hr' : rest (masterCycle false op upd t).state =
                (Bus.cycle op upd f, (masterCycle false op upd t).state.regs) := by
              unfold rest
              rw [a.2, a.1]
              exact hr
            have hm' : atBoundary (masterCycle false op upd t).state = false := by
              unfold atBoundary at hm ⊢
              rw [a.2]
              exact hm
            have g' : Granted op upd fuel (masterCycle false op upd t).state := by
              rcases g with g | g | g
              · exact absurd g hR
              · exact absurd g hD
              · exact g
            obtain ⟨n, hn⟩ := ihf _ (h.cycle t p _ _ _) (masterCycle_built hb) hm' hr' g'
            refine ⟨n + 1, fun j => ?_⟩
            rw [Nat.add_right_comm, step t hb hm hr]
            simp only [hR', hD', Bool.not_false, Bool.or_true, Bool.false_eq_true, if_false, if_true]
            show (if atBoundary _ = true then _ else _) = _
            rw [hm']
            exact hn j
    simp only [Bus.live, busCycle]
    exact key stallFuel t p hb hm hr g

/-- `step_instruction()` is `step_cycle()` up to the next boundary (R787), from a boundary or from a state in which
the master cycles stop in the middle of an instruction (R788), as long as the VIC gives the bus back in time. -/
theorem cyclesToBoundary_eq_step (h : Steady P) (hg : ∀ op upd u, P u → Granted op upd stallFuel u) {s : State}
    (p : P s) (hs : Resumable s) :
    ∃ n, ∀ j, cyclesToBoundary (n + j) s = step s := by
  unfold step stepInstruction
  by_cases hb : notBuilt s = true
  · refine ⟨1, fun j => ?_⟩
    rw [Nat.add_comm, cyclesToBoundary_succ]
    unfold stepCycle
    rw [if_pos hb, if_pos hb]
    rfl
  · have hb' : notBuilt s = false := by simpa using hb
    rw [if_neg hb]
    by_cases hm : atBoundary s = true
    · rw [if_neg (by simp [hm])]
      by_cases hrun : s.status.run = true
      · rw [if_pos hrun, runBoundary_eq]
        have q : P (recognise s) := recognise_keeps h p
        have e1 : notBuilt (recognise s) = false := by
          unfold recognise; split
          · exact hb'
          · split
            · exact hb'
            · split <;> exact hb'
        have e2 : atBoundary (recognise s) = false := by
          unfold recognise; split
          · rfl
          · split
            · rfl
            · split <;> rfl
        have e3 : rest (recognise s) = (recognise s).latches.micro.seq.body.advance (recognise s).regs [] := by
          unfold recognise; split
          · rfl
          · split
            · rfl
            · split <;> rfl
        have e4 : settle (recognise s) = .next (recognise s) := by
          unfold recognise; split
          · rfl
          · split
            · rfl
            · split <;> rfl
        obtain ⟨n, hn⟩ := cycles_live h hg _ _ q e1 e2 e3
        rw [e4] at hn
        refine ⟨n + 1, fun j => ?_⟩
        rw [← hn (j + 1), Nat.add_right_comm, cyclesToBoundary_succ]
        show goOn (n + j) (stepCycle s) = (if atBoundary (recognise s) = true then _ else cyclesToBoundary (n + j + 1) _)
        rw [e2, if_neg (by simp), cyclesToBoundary_succ]
        congr 1
        unfold stepCycle
        simp only [hb', hm, hrun, e1, e2, Bool.not_true, Bool.not_false, Bool.false_eq_true, if_false, if_true]
      · refine ⟨1, fun j => ?_⟩
        rw [if_neg hrun, Nat.add_comm, cyclesToBoundary_succ]
        unfold stepCycle
        rw [if_neg hb, if_neg (by simp [hm]), if_neg hrun]
        simp [goOn, hm]
    · have hm' : atBoundary s = false := by simpa using hm
      have e := hs.resolve_left hm
      rw [if_pos (by simp [hm'])]
      have hr : rest s = (rest s).1.advance s.regs [] := by
        have q : (rest s).2 = s.regs := settle_regs hm' e
        conv_rhs => rw [← q]
        exact (Bus.advance_idem _ _ _).symm
      obtain ⟨n, hn⟩ := cycles_live h hg (rest s).1 s p hb' hm' hr
      refine ⟨n, fun j => ?_⟩
      have := hn j
      rw [e] at this
      simp only [goOn, hm', Bool.false_eq_true, if_false] at this
      rw [this]
      rfl

end

end Sys2Proof.Machine
end

