-- ==== Sys2Proof/Laws/Decode.lean ====
section
/-! SUPPORT. What the decoder and the encoder do, opcode by opcode. -/

namespace Sys2Proof

/-- Neither the opcode nor the length depends on the operand bytes (R280), and the encoding is the bytes read. -/
theorem decodeParts_shape (op b1 b2 : Byte) :
    (decodeParts op b1 b2).opcode = (decodeParts op 0 0).opcode ∧ (decodeParts op b1 b2).length = opcodeLength op ∧
      encode (decodeParts op b1 b2) = [(decodeParts op 0 0).opcode, b1, b2].take (opcodeLength op) := by
  unfold opcodeLength decodeParts
  split
  · unfold decodeRow0; split <;> exact ⟨rfl, rfl, rfl⟩
  · unfold decodeRow1; split <;> exact ⟨rfl, rfl, rfl⟩
  · unfold decodeRow2; split <;> exact ⟨rfl, rfl, rfl⟩
  · unfold decodeRow3; split <;> exact ⟨rfl, rfl, rfl⟩
  · unfold decodeRow4; split <;> exact ⟨rfl, rfl, rfl⟩
  · unfold decodeRow5; split <;> exact ⟨rfl, rfl, rfl⟩
  · unfold decodeRow6; split <;> exact ⟨rfl, rfl, rfl⟩
  · unfold decodeRow7; split <;> exact ⟨rfl, rfl, rfl⟩
  · unfold decodeRow8; split <;> exact ⟨rfl, rfl, rfl⟩
  · unfold decodeRow9; split <;> exact ⟨rfl, rfl, rfl⟩
  · unfold decodeRowA; split <;> exact ⟨rfl, rfl, rfl⟩
  · unfold decodeRowB; split <;> exact ⟨rfl, rfl, rfl⟩
  · unfold decodeRowC; split <;> exact ⟨rfl, rfl, rfl⟩
  · unfold decodeRowD; split <;> exact ⟨rfl, rfl, rfl⟩
  · unfold decodeRowE; split <;> exact ⟨rfl, rfl, rfl⟩
  · unfold decodeRowF; split <;> exact ⟨rfl, rfl, rfl⟩

/-- Every opcode byte decodes to an instruction with that opcode (R284). -/
theorem decodeParts_opcode (op b1 b2 : Byte) : (decodeParts op b1 b2).opcode = op := by
  have h : ∀ op : Byte, (decodeParts op 0 0).opcode = op := by decide
  rw [(decodeParts_shape op b1 b2).1, h]

theorem opcodeLength_range : ∀ op : Byte, opcodeLength op = 1 ∨ opcodeLength op = 2 ∨ opcodeLength op = 3 := by decide

/-- An encoding is as long as its instruction, and begins with the opcode. -/
theorem encode_shape (i : Instr) : (encode i).length = i.length ∧ (encode i).head? = some i.opcode := by
  cases i <;> exact ⟨rfl, rfl⟩

/-- The encoding of a decoded instruction is the bytes it was decoded from. -/
theorem encode_decodeParts (op b1 b2 : Byte) : encode (decodeParts op b1 b2) = [op, b1, b2].take (opcodeLength op) := by
  have h := decodeParts_shape op b1 b2
  rw [h.2.2, ← h.1, decodeParts_opcode]

end Sys2Proof
end

