-- ==== Sys2Proof/Laws/Grant.lean ====
section
/-! SUPPORT. The VIC gives the bus back: within 256 master cycles the CPU has it, whatever the sprites, their slots and
the bad lines are (log 14), so that no bus cycle is ever forced and a step is master cycles up to the next boundary. -/

namespace Sys2Proof.Machine

/-! ### Some cycle of a line is free of sprites -/

theorem cycleAhead_card (len s : Nat) :
    ((Finset.range len).filter fun x => cycleAhead len (x + 1) s = true).card ≤ 5 := by
  have h : ((Finset.range len).filter fun x => cycleAhead len (x + 1) s = true).card ≤ (Finset.range 5).card := by
    apply Finset.card_le_card_of_injOn fun x => (x + 1 + 3 + len - s % len) % len
    · intro x hx
      simp only [Finset.coe_filter, Finset.mem_range, Set.mem_ofPred_eq, cycleAhead, decide_eq_true_eq] at hx
      simpa using hx.2
    · intro x hx y hy e
      simp only [Finset.coe_filter, Finset.mem_range, Set.mem_ofPred_eq] at hx hy
      have hs : s % len < len := Nat.mod_lt _ (by omega)
      dsimp only at e
      have e' := (Nat.modEq_iff_dvd).mp e
      obtain ⟨k, hk⟩ := e'
      have h1 : ((y + 1 + 3 + len - s % len : Nat) : Int) - ((x + 1 + 3 + len - s % len : Nat) : Int) =
          (y : Int) - x := by omega
      rw [h1] at hk
      have : k = 0 := by
        rcases lt_trichotomy k 0 with hk' | hk' | hk'
        · nlinarith
        · exact hk'
        · nlinarith
      subst this
      omega
  simpa using h

/-- A line of more than 40 cycles has one in which no sprite wants the bus, wherever the slots are. -/
theorem free_cycle (len : Nat) (slot : Nat → Nat) (h : 40 < len) :
    ∃ x, x < len ∧ ∀ n, n < 8 → cycleAhead len (x + 1) (slot n) = false := by
  by_contra hc
  have hc' : ∀ x, x < len → ∃ n, n < 8 ∧ cycleAhead len (x + 1) (slot n) = true := by
    intro x hx
    by_contra hn
    exact hc ⟨x, hx, fun n h8 => by
      by_contra ht
      exact hn ⟨n, h8, by simpa using ht⟩⟩
  have hsub : Finset.range len ⊆ (Finset.range 8).biUnion fun n =>
      (Finset.range len).filter fun x => cycleAhead len (x + 1) (slot n) = true := by
    intro x hx
    obtain ⟨n, h8, ht⟩ := hc' x (Finset.mem_range.mp hx)
    exact Finset.mem_biUnion.mpr ⟨n, Finset.mem_range.mpr h8, Finset.mem_filter.mpr ⟨hx, ht⟩⟩
  have c := (Finset.card_le_card hsub).trans Finset.card_biUnion_le
  have d : ∑ n ∈ Finset.range 8, ((Finset.range len).filter fun x => cycleAhead len (x + 1) (slot n) = true).card ≤
      ∑ _n ∈ Finset.range 8, 5 := Finset.sum_le_sum fun n _ => cycleAhead_card len (slot n)
  simp only [Finset.card_range, Finset.sum_const, smul_eq_mul] at c d
  omega

/-! ### One master cycle in which the CPU is not given the bus -/

/-- The raster position after one tick (R661). -/
def nextPos (len lines : Nat) (q : Nat × Nat) : Nat × Nat :=
  if q.1 + 1 < len then (q.1 + 1, q.2) else if q.2 + 1 < lines then (0, q.2 + 1) else (0, 0)

/-- BA can be low in the tick at this position (R680): the line may be bad, or some sprite wants the bus. -/
def mayBeLow (p : Params) (ys : Nat) (q : Nat × Nat) : Prop :=
  (0x30 ≤ q.2 ∧ q.2 % 8 = ys) ∨ ∃ n, n < 8 ∧ cycleAhead (cyclesPerLine p.model) (q.1 + 1) (spriteSlot p n) = true

theorem cycleAt_ahead {len c s d : Nat} (hl : 0 < len) (hd : d < 2) (h : cycleAt len c s d = true) (h5 : 5 ≤ len) :
    cycleAhead len c s = true := by
  unfold cycleAt cycleAhead at *
  simp only [decide_eq_true_eq] at *
  have hs : s % len < len := Nat.mod_lt _ hl
  have e : (c + 3 + len - s % len) % len = (d + 3) % len := by
    apply Nat.ModEq.add_right_cancel' (s % len)
    have e1 : c + 3 + len - s % len + s % len = c + 3 + len := by omega
    rw [e1]
    have e2 : c ≡ s + d [MOD len] := h
    have e3 : s % len ≡ s [MOD len] := Nat.mod_modEq s len
    have e4 : c + 3 + len ≡ s + d + 3 + 0 [MOD len] :=
      (e2.add_right 3).add ((Nat.modEq_zero_iff_dvd).mpr (dvd_refl len))
    have e5 : d + 3 + s % len ≡ d + 3 + s [MOD len] := e3.add_left (d + 3)
    have e6 : s + d + 3 + 0 = d + 3 + s := by omega
    rw [e6] at e4
    exact e4.trans e5.symm
  rw [e, Nat.mod_eq_of_lt (by omega)]
  omega

theorem anyIdx_exists {α : Type} {f : Nat → α → Bool} {o : Oct α} (h : o.anyIdx f = true) :
    ∃ n, n < 8 ∧ ∃ a, f n a = true := by
  simp only [Oct.anyIdx, Bool.or_eq_true] at h
  rcases h with ((((((h | h) | h) | h) | h) | h) | h) | h
  · exact ⟨0, by omega, _, h⟩
  · exact ⟨1, by omega, _, h⟩
  · exact ⟨2, by omega, _, h⟩
  · exact ⟨3, by omega, _, h⟩
  · exact ⟨4, by omega, _, h⟩
  · exact ⟨5, by omega, _, h⟩
  · exact ⟨6, by omega, _, h⟩
  · exact ⟨7, by omega, _, h⟩

theorem len_range (m : Model) : 40 < cyclesPerLine m ∧ cyclesPerLine m ≤ 65 ∧ 0 < linesPerFrame m := by
  cases m <;> decide

/-- Where BA or AEC is low, the position allows it. -/
theorem mayBeLow_of_low {v : Vic} {p : Params} (h : v.baLow p = true ∨ v.aecLow p = true) :
    mayBeLow p v.yscroll (v.x, v.y) := by
  have hl := len_range p.model
  have bad : v.bad = true → 0x30 ≤ v.y ∧ v.y % 8 = v.yscroll := by
    unfold Vic.bad
    simp only [Bool.and_eq_true, decide_eq_true_eq]
    exact fun b => ⟨b.1.1.1, b.1.2⟩
  rcases h with h | h
  · unfold Vic.baLow at h
    rcases (Bool.or_eq_true _ _).mp h with h | h
    · simp only [Bool.and_eq_true] at h
      exact Or.inl (bad h.1.1)
    · obtain ⟨n, h8, a, ha⟩ := anyIdx_exists h
      exact Or.inr ⟨n, h8, ((Bool.and_eq_true _ _).mp ha).2⟩
  · unfold Vic.aecLow at h
    rcases (Bool.or_eq_true _ _).mp h with h | h
    · simp only [Bool.and_eq_true] at h
      exact Or.inl (bad h.1.1)
    · obtain ⟨n, h8, a, ha⟩ := anyIdx_exists h
      have ha' := ((Bool.and_eq_true _ _).mp ha).2
      rcases (Bool.or_eq_true _ _).mp ha' with hb | hb
      · exact Or.inr ⟨n, h8, cycleAt_ahead (by omega) (by omega) hb (by omega)⟩
      · exact Or.inr ⟨n, h8, cycleAt_ahead (by omega) (by omega) hb (by omega)⟩

theorem Vic.stepBa_shape (v : Vic) (p : Params) : (v.stepBa p).shape = v.shape := rfl
theorem Vic.stepBa_baPrev (v : Vic) (p : Params) : (v.stepBa p).baPrev = !(v.baLow p) := rfl
theorem Vic.tick_aec (v : Vic) (w : VicView) : (v.tick w).aec = !((v.fetchSteps w).aecLow w.params) := by
  simp only [Vic.tick]

/-- What a tick does to the position, and what its BA level is. -/
theorem Vic.tick_pos (v : Vic) (w : VicView) :
    ((v.tick w).vic.x, (v.tick w).vic.y) =
        nextPos (cyclesPerLine w.params.model) (linesPerFrame w.params.model) (v.x, v.y) ∧
      (v.tick w).vic.baPrev = !((v.fetchSteps w).baLow w.params) := by
  have b : ((v.fetchSteps w).stepBa w.params).late =
      (v.shape, ((v.fetchSteps w).stepBa w.params).baLowCount, !((v.fetchSteps w).baLow w.params)) := by
    simp only [Vic.late, Vic.stepBa_shape, Vic.stepBa_baPrev, Vic.fetchSteps_shape]
  simp only [Vic.tick]
  generalize (v.fetchSteps w).stepBa w.params = v8 at b ⊢
  have l := Vic.pixels_late v8 w.params
  generalize (v8.pixels w.params).1 = v9 at l ⊢
  have l2 := Vic.lightPen_late v9 w.params w.lightPen
  generalize v9.lightPen w.params w.lightPen = v10 at l2 ⊢
  have e := (l2.trans l).trans b
  simp only [Vic.late, Vic.shape, Prod.mk.injEq] at e
  obtain ⟨⟨e1, e2, _⟩, _, e3⟩ := e
  unfold Vic.advance nextPos
  rw [e1, e2]
  constructor
  · dsimp only
    split
    · rfl
    · split <;> rfl
  · split
    · exact e3
    · split <;> exact e3

theorem putVic_sees (o : VicOut) (s : State) :
    (detectEdges (putVic o s)).vic = o.vic ∧ (detectEdges (putVic o s)).pins.ba = o.vic.baPrev ∧
      (detectEdges (putVic o s)).pins.aec = o.aec := ⟨rfl, rfl, rfl⟩

/-- The VIC's pins at the CPU phase are those of its tick. -/
theorem cpuView_vic (s : State) :
    (cpuView s).vic = (s.vic.tick (vicView (inputPhase s))).vic ∧
      (cpuView s).pins.ba = (s.vic.tick (vicView (inputPhase s))).vic.baPrev ∧
      (cpuView s).pins.aec = (s.vic.tick (vicView (inputPhase s))).aec :=
  putVic_sees (s.vic.tick (vicView (inputPhase s))) (inputPhase s)

theorem cr1_of_settings {u v : Vic} (h : u.settings = v.settings) : u.yscroll = v.yscroll := by
  unfold Vic.yscroll
  rw [(Vic.registers_of_settings h).1]

/-- A master cycle that neither gives the CPU the bus nor sees CPU-RESET fall is at a position where BA may be low, and
leads to the next position; YSCROLL cannot change. -/
theorem not_granted {op : BusOp} {upd : Byte → Regs → Regs} {s : State}
    (hr : ¬ (masterCycle false op upd s).reset = true) (hd : ¬ (masterCycle false op upd s).done = true) :
    mayBeLow s.params s.vic.yscroll (s.vic.x, s.vic.y) ∧
      ((masterCycle false op upd s).state.vic.x, (masterCycle false op upd s).state.vic.y) =
        nextPos (cyclesPerLine s.params.model) (linesPerFrame s.params.model) (s.vic.x, s.vic.y) ∧
      (masterCycle false op upd s).state.vic.yscroll = s.vic.yscroll ∧
      (masterCycle false op upd s).state.params = s.params := by
  have hr' : resetEdge (inputPhase s) = false := by simpa [masterCycle] using hr
  have hd' : granted op (cpuView s) = false := by simpa [masterCycle] using hd
  have hst : (masterCycle false op upd s).state = devicePhases (stallPhase (cpuView s)) := by
    simp [masterCycle, hr', hd']
  have hv : (masterCycle false op upd s).state.vic = (s.vic.tick (vicView (inputPhase s))).vic := by
    rw [hst, devicePhases_vic, stallPhase_vic, (cpuView_vic s).1]
  have hp : (vicView (inputPhase s)).params = s.params := rfl
  obtain ⟨t1, t2⟩ := Vic.tick_pos s.vic (vicView (inputPhase s))
  rw [hp] at t1 t2
  refine ⟨?_, by rw [hv]; exact t1, ?_, by rw [hst]; simp⟩
  · have f := Vic.shape_eq (Vic.fetchSteps_shape s.vic (vicView (inputPhase s)))
    have y : (s.vic.fetchSteps (vicView (inputPhase s))).yscroll = s.vic.yscroll :=
      cr1_of_settings (Vic.fetchSteps_settings s.vic (vicView (inputPhase s)))
    rw [← f.1, ← f.2.1, ← y]
    apply mayBeLow_of_low
    by_contra hn
    have h1 : (s.vic.fetchSteps (vicView (inputPhase s))).baLow s.params = false := by
      by_contra hb
      exact hn (Or.inl (by simpa using hb))
    have h2 : (s.vic.fetchSteps (vicView (inputPhase s))).aecLow s.params = false := by
      by_contra hb
      exact hn (Or.inr (by simpa using hb))
    have g1 : (cpuView s).pins.ba = true := by
      rw [(cpuView_vic s).2.1, t2, h1]
      rfl
    have g2 : (cpuView s).pins.aec = true := by
      rw [(cpuView_vic s).2.2, Vic.tick_aec, hp, h2]
      rfl
    simp [granted, g1, g2] at hd'
  · rw [hv]
    exact cr1_of_settings (Vic.tick_settings _ _)

/-! ### Two lines -/

/-- `m` master cycles without the bus. -/
theorem without_bus {op : BusOp} {upd : Byte → Regs → Regs} {p : Params} {ys : Nat} (m : Nat) {n : Nat} {s : State}
    (hp : s.params = p) (hy : s.vic.yscroll = ys) (h : ¬ Granted op upd (m + n) s) :
    ∃ t, t.params = p ∧ t.vic.yscroll = ys ∧ ¬ Granted op upd n t ∧
      (t.vic.x, t.vic.y) =
        (nextPos (cyclesPerLine p.model) (linesPerFrame p.model))^[m] (s.vic.x, s.vic.y) := by
  induction m generalizing s with
  | zero => exact ⟨s, hp, hy, by simpa using h, rfl⟩
  | succ m ih =>
    have e : m + 1 + n = (m + n) + 1 := by omega
    rw [e] at h
    simp only [Granted, not_or] at h
    obtain ⟨hr, hd, hg⟩ := h
    obtain ⟨_, a2, a3, a4⟩ := not_granted hr hd
    obtain ⟨t, t1, t2, t3, t4⟩ := ih (a4.trans hp) (a3.trans hy) hg
    refine ⟨t, t1, t2, t3, ?_⟩
    rw [t4, a2, hp, Function.iterate_succ_apply]

theorem nextPos_walk {len lines : Nat} (m : Nat) {x y : Nat} (h : x + m < len) :
    (nextPos len lines)^[m] (x, y) = (x + m, y) := by
  induction m generalizing x with
  | zero => rfl
  | succ m ih =>
    rw [Function.iterate_succ_apply]
    have e : nextPos len lines (x, y) = (x + 1, y) := if_pos (by show x + 1 < len; omega)
    rw [e, ih (by omega)]
    congr 1
    omega

/-- The line after line `y`. -/
def nextLine (lines y : Nat) : Nat := if y + 1 < lines then y + 1 else 0

theorem nextPos_line {len lines x y : Nat} (h : len ≤ x + 1) : nextPos len lines (x, y) = (0, nextLine lines y) := by
  unfold nextPos nextLine
  rw [if_neg (by show ¬ x + 1 < len; omega)]
  split <;> rfl

/-- From one line to the same cycle of the next. -/
theorem nextPos_fullLine {len lines x y : Nat} (h : x < len) :
    (nextPos len lines)^[len] (x, y) = (x, nextLine lines y) := by
  have e : x + (1 + (len - 1 - x)) = len := by omega
  have h1 : (nextPos len lines)^[len - 1 - x] (x, y) = (len - 1, y) := by
    rw [nextPos_walk _ (by omega)]
    congr 1
    omega
  have h2 : (nextPos len lines)^[x + (1 + (len - 1 - x))] (x, y) = (x, nextLine lines y) := by
    rw [Function.iterate_add_apply, Function.iterate_add_apply, h1, Function.iterate_one, nextPos_line (by omega),
      nextPos_walk _ (by omega)]
    congr 1
    omega
  rwa [e] at h2

/-- From anywhere, a given cycle of some line is reached within a line and one cycle. -/
theorem nextPos_reach {len lines : Nat} (x0 : Nat) (h0 : x0 < len) (x y : Nat) :
    ∃ m, m ≤ len ∧ ∃ y', (nextPos len lines)^[m] (x, y) = (x0, y') := by
  by_cases h1 : x ≤ x0
  · exact ⟨x0 - x, by omega, y, by rw [nextPos_walk _ (by omega)]; congr 1; omega⟩
  · by_cases h2 : x + 1 < len
    · refine ⟨x0 + (1 + (len - 1 - x)), by omega, nextLine lines y, ?_⟩
      rw [Function.iterate_add_apply, Function.iterate_add_apply, nextPos_walk (len - 1 - x) (by omega),
        Function.iterate_one, nextPos_line (by omega), nextPos_walk _ (by omega)]
      congr 1
      omega
    · refine ⟨x0 + 1, by omega, nextLine lines y, ?_⟩
      rw [Function.iterate_add_apply, Function.iterate_one, nextPos_line (by omega), nextPos_walk _ (by omega)]
      congr 1
      omega

/-- The VIC never holds the bus for 256 master cycles: in each line some cycle is free of sprites, and of two lines in
a row one is not bad. -/
theorem granted_in_time (op : BusOp) (upd : Byte → Regs → Regs) (s : State) : Granted op upd stallFuel s := by
  by_contra h
  have hl := len_range s.params.model
  obtain ⟨x0, hx, hf⟩ := free_cycle _ (spriteSlot s.params) hl.1
  obtain ⟨m, hm, y1, e1⟩ := nextPos_reach (lines := linesPerFrame s.params.model) x0 hx s.vic.x s.vic.y
  have not_free : ∀ y, mayBeLow s.params s.vic.yscroll (x0, y) → 0x30 ≤ y ∧ y % 8 = s.vic.yscroll := by
    intro y hy
    rcases hy with hy | ⟨n, h8, hn⟩
    · exact hy
    · rw [hf n h8] at hn
      cases hn
  have low : ∀ (t : State) (n : Nat), t.params = s.params → t.vic.yscroll = s.vic.yscroll →
      ¬ Granted op upd (n + 1) t → mayBeLow s.params s.vic.yscroll (t.vic.x, t.vic.y) := by
    intro t n tp ty tg
    simp only [Granted, not_or] at tg
    have := (not_granted tg.1 tg.2.1).1
    rw [tp, ty] at this
    exact this
  have es : stallFuel = m + (stallFuel - m) := by unfold stallFuel; omega
  rw [es] at h
  obtain ⟨t, t1, t2, t3, t4⟩ := without_bus m rfl rfl h
  rw [e1] at t4
  have et : stallFuel - m = cyclesPerLine s.params.model + (stallFuel - m - cyclesPerLine s.params.model) := by
    unfold stallFuel; omega
  have et' : stallFuel - m = (stallFuel - m - 1) + 1 := by unfold stallFuel; omega
  have b1 := low t (stallFuel - m - 1) t1 t2 (by rw [← et']; exact t3)
  rw [t4] at b1
  rw [et] at t3
  obtain ⟨u, u1, u2, u3, u4⟩ := without_bus (cyclesPerLine s.params.model) t1 t2 t3
  rw [t4, nextPos_fullLine hx] at u4
  have eu : stallFuel - m - cyclesPerLine s.params.model =
      (stallFuel - m - cyclesPerLine s.params.model - 1) + 1 := by unfold stallFuel; omega
  have b2 := low u (stallFuel - m - cyclesPerLine s.params.model - 1) u1 u2 (by rw [← eu]; exact u3)
  rw [u4] at b2
  have c1 := not_free _ b1
  have c2 := not_free _ b2
  unfold nextLine at c2
  split at c2 <;> omega

/-! ### What follows -/

/-- `step_instruction()` is `step_cycle()` up to the next boundary (R787), from a boundary and from any state in which
master cycles stop inside an instruction (R788). -/
theorem step_eq_cycles {s : State} (hs : Resumable s) :
    ∃ n, ∀ j, cyclesToBoundary (n + j) s = step s :=
  cyclesToBoundary_eq_step (P := fun _ => True) ⟨fun _ _ _ _ _ => trivial, fun _ _ _ _ => trivial⟩
    (fun op upd u _ => granted_in_time op upd u) trivial hs

end Sys2Proof.Machine
end

