-- ==== Sys2Proof/Laws/PerInstr.lean ====
section
/-! SUPPORT. Facts about every instruction as syntax, one lemma per constructor. -/

namespace Sys2Proof.Laws.EncodingShape

/-- The encoding begins with the opcode byte, and it is as long as its addressing mode says (R280, R281). -/
def Statement (i : Instr) : Prop := (encode i).head? = some i.opcode ∧ (encode i).length = i.mode.length

theorem brk : Statement .brk := ⟨rfl, rfl⟩
theorem oraIzx (zp : Byte) : Statement (.oraIzx zp) := ⟨rfl, rfl⟩
theorem jam02 : Statement .jam02 := ⟨rfl, rfl⟩
theorem sloIzx (zp : Byte) : Statement (.sloIzx zp) := ⟨rfl, rfl⟩
theorem nopZp04 (zp : Byte) : Statement (.nopZp04 zp) := ⟨rfl, rfl⟩
theorem oraZp (zp : Byte) : Statement (.oraZp zp) := ⟨rfl, rfl⟩
theorem aslZp (zp : Byte) : Statement (.aslZp zp) := ⟨rfl, rfl⟩
theorem sloZp (zp : Byte) : Statement (.sloZp zp) := ⟨rfl, rfl⟩
theorem php : Statement .php := ⟨rfl, rfl⟩
theorem oraImm (imm : Byte) : Statement (.oraImm imm) := ⟨rfl, rfl⟩
theorem aslAcc : Statement .aslAcc := ⟨rfl, rfl⟩
theorem ancImm0B (imm : Byte) : Statement (.ancImm0B imm) := ⟨rfl, rfl⟩
theorem nopAbs0C (lo hi : Byte) : Statement (.nopAbs0C lo hi) := ⟨rfl, rfl⟩
theorem oraAbs (lo hi : Byte) : Statement (.oraAbs lo hi) := ⟨rfl, rfl⟩
theorem aslAbs (lo hi : Byte) : Statement (.aslAbs lo hi) := ⟨rfl, rfl⟩
theorem sloAbs (lo hi : Byte) : Statement (.sloAbs lo hi) := ⟨rfl, rfl⟩
theorem bplRel (off : Byte) : Statement (.bplRel off) := ⟨rfl, rfl⟩
theorem oraIzy (zp : Byte) : Statement (.oraIzy zp) := ⟨rfl, rfl⟩
theorem jam12 : Statement .jam12 := ⟨rfl, rfl⟩
theorem sloIzy (zp : Byte) : Statement (.sloIzy zp) := ⟨rfl, rfl⟩
theorem nopZpx14 (zp : Byte) : Statement (.nopZpx14 zp) := ⟨rfl, rfl⟩
theorem oraZpx (zp : Byte) : Statement (.oraZpx zp) := ⟨rfl, rfl⟩
theorem aslZpx (zp : Byte) : Statement (.aslZpx zp) := ⟨rfl, rfl⟩
theorem sloZpx (zp : Byte) : Statement (.sloZpx zp) := ⟨rfl, rfl⟩
theorem clc : Statement .clc := ⟨rfl, rfl⟩
theorem oraAby (lo hi : Byte) : Statement (.oraAby lo hi) := ⟨rfl, rfl⟩
theorem nop1A : Statement .nop1A := ⟨rfl, rfl⟩
theorem sloAby (lo hi : Byte) : Statement (.sloAby lo hi) := ⟨rfl, rfl⟩
theorem nopAbx1C (lo hi : Byte) : Statement (.nopAbx1C lo hi) := ⟨rfl, rfl⟩
theorem oraAbx (lo hi : Byte) : Statement (.oraAbx lo hi) := ⟨rfl, rfl⟩
theorem aslAbx (lo hi : Byte) : Statement (.aslAbx lo hi) := ⟨rfl, rfl⟩
theorem sloAbx (lo hi : Byte) : Statement (.sloAbx lo hi) := ⟨rfl, rfl⟩
theorem jsrAbs (lo hi : Byte) : Statement (.jsrAbs lo hi) := ⟨rfl, rfl⟩
theorem andIzx (zp : Byte) : Statement (.andIzx zp) := ⟨rfl, rfl⟩
theorem jam22 : Statement .jam22 := ⟨rfl, rfl⟩
theorem rlaIzx (zp : Byte) : Statement (.rlaIzx zp) := ⟨rfl, rfl⟩
theorem bitZp (zp : Byte) : Statement (.bitZp zp) := ⟨rfl, rfl⟩
theorem andZp (zp : Byte) : Statement (.andZp zp) := ⟨rfl, rfl⟩
theorem rolZp (zp : Byte) : Statement (.rolZp zp) := ⟨rfl, rfl⟩
theorem rlaZp (zp : Byte) : Statement (.rlaZp zp) := ⟨rfl, rfl⟩
theorem plp : Statement .plp := ⟨rfl, rfl⟩
theorem andImm (imm : Byte) : Statement (.andImm imm) := ⟨rfl, rfl⟩
theorem rolAcc : Statement .rolAcc := ⟨rfl, rfl⟩
theorem ancImm2B (imm : Byte) : Statement (.ancImm2B imm) := ⟨rfl, rfl⟩
theorem bitAbs (lo hi : Byte) : Statement (.bitAbs lo hi) := ⟨rfl, rfl⟩
theorem andAbs (lo hi : Byte) : Statement (.andAbs lo hi) := ⟨rfl, rfl⟩
theorem rolAbs (lo hi : Byte) : Statement (.rolAbs lo hi) := ⟨rfl, rfl⟩
theorem rlaAbs (lo hi : Byte) : Statement (.rlaAbs lo hi) := ⟨rfl, rfl⟩
theorem bmiRel (off : Byte) : Statement (.bmiRel off) := ⟨rfl, rfl⟩
theorem andIzy (zp : Byte) : Statement (.andIzy zp) := ⟨rfl, rfl⟩
theorem jam32 : Statement .jam32 := ⟨rfl, rfl⟩
theorem rlaIzy (zp : Byte) : Statement (.rlaIzy zp) := ⟨rfl, rfl⟩
theorem nopZpx34 (zp : Byte) : Statement (.nopZpx34 zp) := ⟨rfl, rfl⟩
theorem andZpx (zp : Byte) : Statement (.andZpx zp) := ⟨rfl, rfl⟩
theorem rolZpx (zp : Byte) : Statement (.rolZpx zp) := ⟨rfl, rfl⟩
theorem rlaZpx (zp : Byte) : Statement (.rlaZpx zp) := ⟨rfl, rfl⟩
theorem sec : Statement .sec := ⟨rfl, rfl⟩
theorem andAby (lo hi : Byte) : Statement (.andAby lo hi) := ⟨rfl, rfl⟩
theorem nop3A : Statement .nop3A := ⟨rfl, rfl⟩
theorem rlaAby (lo hi : Byte) : Statement (.rlaAby lo hi) := ⟨rfl, rfl⟩
theorem nopAbx3C (lo hi : Byte) : Statement (.nopAbx3C lo hi) := ⟨rfl, rfl⟩
theorem andAbx (lo hi : Byte) : Statement (.andAbx lo hi) := ⟨rfl, rfl⟩
theorem rolAbx (lo hi : Byte) : Statement (.rolAbx lo hi) := ⟨rfl, rfl⟩
theorem rlaAbx (lo hi : Byte) : Statement (.rlaAbx lo hi) := ⟨rfl, rfl⟩
theorem rti : Statement .rti := ⟨rfl, rfl⟩
theorem eorIzx (zp : Byte) : Statement (.eorIzx zp) := ⟨rfl, rfl⟩
theorem jam42 : Statement .jam42 := ⟨rfl, rfl⟩
theorem sreIzx (zp : Byte) : Statement (.sreIzx zp) := ⟨rfl, rfl⟩
theorem nopZp44 (zp : Byte) : Statement (.nopZp44 zp) := ⟨rfl, rfl⟩
theorem eorZp (zp : Byte) : Statement (.eorZp zp) := ⟨rfl, rfl⟩
theorem lsrZp (zp : Byte) : Statement (.lsrZp zp) := ⟨rfl, rfl⟩
theorem sreZp (zp : Byte) : Statement (.sreZp zp) := ⟨rfl, rfl⟩
theorem pha : Statement .pha := ⟨rfl, rfl⟩
theorem eorImm (imm : Byte) : Statement (.eorImm imm) := ⟨rfl, rfl⟩
theorem lsrAcc : Statement .lsrAcc := ⟨rfl, rfl⟩
theorem alrImm (imm : Byte) : Statement (.alrImm imm) := ⟨rfl, rfl⟩
theorem jmpAbs (lo hi : Byte) : Statement (.jmpAbs lo hi) := ⟨rfl, rfl⟩
theorem eorAbs (lo hi : Byte) : Statement (.eorAbs lo hi) := ⟨rfl, rfl⟩
theorem lsrAbs (lo hi : Byte) : Statement (.lsrAbs lo hi) := ⟨rfl, rfl⟩
theorem sreAbs (lo hi : Byte) : Statement (.sreAbs lo hi) := ⟨rfl, rfl⟩
theorem bvcRel (off : Byte) : Statement (.bvcRel off) := ⟨rfl, rfl⟩
theorem eorIzy (zp : Byte) : Statement (.eorIzy zp) := ⟨rfl, rfl⟩
theorem jam52 : Statement .jam52 := ⟨rfl, rfl⟩
theorem sreIzy (zp : Byte) : Statement (.sreIzy zp) := ⟨rfl, rfl⟩
theorem nopZpx54 (zp : Byte) : Statement (.nopZpx54 zp) := ⟨rfl, rfl⟩
theorem eorZpx (zp : Byte) : Statement (.eorZpx zp) := ⟨rfl, rfl⟩
theorem lsrZpx (zp : Byte) : Statement (.lsrZpx zp) := ⟨rfl, rfl⟩
theorem sreZpx (zp : Byte) : Statement (.sreZpx zp) := ⟨rfl, rfl⟩
theorem cli : Statement .cli := ⟨rfl, rfl⟩
theorem eorAby (lo hi : Byte) : Statement (.eorAby lo hi) := ⟨rfl, rfl⟩
theorem nop5A : Statement .nop5A := ⟨rfl, rfl⟩
theorem sreAby (lo hi : Byte) : Statement (.sreAby lo hi) := ⟨rfl, rfl⟩
theorem nopAbx5C (lo hi : Byte) : Statement (.nopAbx5C lo hi) := ⟨rfl, rfl⟩
theorem eorAbx (lo hi : Byte) : Statement (.eorAbx lo hi) := ⟨rfl, rfl⟩
theorem lsrAbx (lo hi : Byte) : Statement (.lsrAbx lo hi) := ⟨rfl, rfl⟩
theorem sreAbx (lo hi : Byte) : Statement (.sreAbx lo hi) := ⟨rfl, rfl⟩
theorem rts : Statement .rts := ⟨rfl, rfl⟩
theorem adcIzx (zp : Byte) : Statement (.adcIzx zp) := ⟨rfl, rfl⟩
theorem jam62 : Statement .jam62 := ⟨rfl, rfl⟩
theorem rraIzx (zp : Byte) : Statement (.rraIzx zp) := ⟨rfl, rfl⟩
theorem nopZp64 (zp : Byte) : Statement (.nopZp64 zp) := ⟨rfl, rfl⟩
theorem adcZp (zp : Byte) : Statement (.adcZp zp) := ⟨rfl, rfl⟩
theorem rorZp (zp : Byte) : Statement (.rorZp zp) := ⟨rfl, rfl⟩
theorem rraZp (zp : Byte) : Statement (.rraZp zp) := ⟨rfl, rfl⟩
theorem pla : Statement .pla := ⟨rfl, rfl⟩
theorem adcImm (imm : Byte) : Statement (.adcImm imm) := ⟨rfl, rfl⟩
theorem rorAcc : Statement .rorAcc := ⟨rfl, rfl⟩
theorem arrImm (imm : Byte) : Statement (.arrImm imm) := ⟨rfl, rfl⟩
theorem jmpInd (lo hi : Byte) : Statement (.jmpInd lo hi) := ⟨rfl, rfl⟩
theorem adcAbs (lo hi : Byte) : Statement (.adcAbs lo hi) := ⟨rfl, rfl⟩
theorem rorAbs (lo hi : Byte) : Statement (.rorAbs lo hi) := ⟨rfl, rfl⟩
theorem rraAbs (lo hi : Byte) : Statement (.rraAbs lo hi) := ⟨rfl, rfl⟩
theorem bvsRel (off : Byte) : Statement (.bvsRel off) := ⟨rfl, rfl⟩
theorem adcIzy (zp : Byte) : Statement (.adcIzy zp) := ⟨rfl, rfl⟩
theorem jam72 : Statement .jam72 := ⟨rfl, rfl⟩
theorem rraIzy (zp : Byte) : Statement (.rraIzy zp) := ⟨rfl, rfl⟩
theorem nopZpx74 (zp : Byte) : Statement (.nopZpx74 zp) := ⟨rfl, rfl⟩
theorem adcZpx (zp : Byte) : Statement (.adcZpx zp) := ⟨rfl, rfl⟩
theorem rorZpx (zp : Byte) : Statement (.rorZpx zp) := ⟨rfl, rfl⟩
theorem rraZpx (zp : Byte) : Statement (.rraZpx zp) := ⟨rfl, rfl⟩
theorem sei : Statement .sei := ⟨rfl, rfl⟩
theorem adcAby (lo hi : Byte) : Statement (.adcAby lo hi) := ⟨rfl, rfl⟩
theorem nop7A : Statement .nop7A := ⟨rfl, rfl⟩
theorem rraAby (lo hi : Byte) : Statement (.rraAby lo hi) := ⟨rfl, rfl⟩
theorem nopAbx7C (lo hi : Byte) : Statement (.nopAbx7C lo hi) := ⟨rfl, rfl⟩
theorem adcAbx (lo hi : Byte) : Statement (.adcAbx lo hi) := ⟨rfl, rfl⟩
theorem rorAbx (lo hi : Byte) : Statement (.rorAbx lo hi) := ⟨rfl, rfl⟩
theorem rraAbx (lo hi : Byte) : Statement (.rraAbx lo hi) := ⟨rfl, rfl⟩
theorem nopImm80 (imm : Byte) : Statement (.nopImm80 imm) := ⟨rfl, rfl⟩
theorem staIzx (zp : Byte) : Statement (.staIzx zp) := ⟨rfl, rfl⟩
theorem nopImm82 (imm : Byte) : Statement (.nopImm82 imm) := ⟨rfl, rfl⟩
theorem saxIzx (zp : Byte) : Statement (.saxIzx zp) := ⟨rfl, rfl⟩
theorem styZp (zp : Byte) : Statement (.styZp zp) := ⟨rfl, rfl⟩
theorem staZp (zp : Byte) : Statement (.staZp zp) := ⟨rfl, rfl⟩
theorem stxZp (zp : Byte) : Statement (.stxZp zp) := ⟨rfl, rfl⟩
theorem saxZp (zp : Byte) : Statement (.saxZp zp) := ⟨rfl, rfl⟩
theorem dey : Statement .dey := ⟨rfl, rfl⟩
theorem nopImm89 (imm : Byte) : Statement (.nopImm89 imm) := ⟨rfl, rfl⟩
theorem txa : Statement .txa := ⟨rfl, rfl⟩
theorem aneImm (imm : Byte) : Statement (.aneImm imm) := ⟨rfl, rfl⟩
theorem styAbs (lo hi : Byte) : Statement (.styAbs lo hi) := ⟨rfl, rfl⟩
theorem staAbs (lo hi : Byte) : Statement (.staAbs lo hi) := ⟨rfl, rfl⟩
theorem stxAbs (lo hi : Byte) : Statement (.stxAbs lo hi) := ⟨rfl, rfl⟩
theorem saxAbs (lo hi : Byte) : Statement (.saxAbs lo hi) := ⟨rfl, rfl⟩
theorem bccRel (off : Byte) : Statement (.bccRel off) := ⟨rfl, rfl⟩
theorem staIzy (zp : Byte) : Statement (.staIzy zp) := ⟨rfl, rfl⟩
theorem jam92 : Statement .jam92 := ⟨rfl, rfl⟩
theorem shaIzy (zp : Byte) : Statement (.shaIzy zp) := ⟨rfl, rfl⟩
theorem styZpx (zp : Byte) : Statement (.styZpx zp) := ⟨rfl, rfl⟩
theorem staZpx (zp : Byte) : Statement (.staZpx zp) := ⟨rfl, rfl⟩
theorem stxZpy (zp : Byte) : Statement (.stxZpy zp) := ⟨rfl, rfl⟩
theorem saxZpy (zp : Byte) : Statement (.saxZpy zp) := ⟨rfl, rfl⟩
theorem tya : Statement .tya := ⟨rfl, rfl⟩
theorem staAby (lo hi : Byte) : Statement (.staAby lo hi) := ⟨rfl, rfl⟩
theorem txs : Statement .txs := ⟨rfl, rfl⟩
theorem tasAby (lo hi : Byte) : Statement (.tasAby lo hi) := ⟨rfl, rfl⟩
theorem shyAbx (lo hi : Byte) : Statement (.shyAbx lo hi) := ⟨rfl, rfl⟩
theorem staAbx (lo hi : Byte) : Statement (.staAbx lo hi) := ⟨rfl, rfl⟩
theorem shxAby (lo hi : Byte) : Statement (.shxAby lo hi) := ⟨rfl, rfl⟩
theorem shaAby (lo hi : Byte) : Statement (.shaAby lo hi) := ⟨rfl, rfl⟩
theorem ldyImm (imm : Byte) : Statement (.ldyImm imm) := ⟨rfl, rfl⟩
theorem ldaIzx (zp : Byte) : Statement (.ldaIzx zp) := ⟨rfl, rfl⟩
theorem ldxImm (imm : Byte) : Statement (.ldxImm imm) := ⟨rfl, rfl⟩
theorem laxIzx (zp : Byte) : Statement (.laxIzx zp) := ⟨rfl, rfl⟩
theorem ldyZp (zp : Byte) : Statement (.ldyZp zp) := ⟨rfl, rfl⟩
theorem ldaZp (zp : Byte) : Statement (.ldaZp zp) := ⟨rfl, rfl⟩
theorem ldxZp (zp : Byte) : Statement (.ldxZp zp) := ⟨rfl, rfl⟩
theorem laxZp (zp : Byte) : Statement (.laxZp zp) := ⟨rfl, rfl⟩
theorem tay : Statement .tay := ⟨rfl, rfl⟩
theorem ldaImm (imm : Byte) : Statement (.ldaImm imm) := ⟨rfl, rfl⟩
theorem tax : Statement .tax := ⟨rfl, rfl⟩
theorem lxaImm (imm : Byte) : Statement (.lxaImm imm) := ⟨rfl, rfl⟩
theorem ldyAbs (lo hi : Byte) : Statement (.ldyAbs lo hi) := ⟨rfl, rfl⟩
theorem ldaAbs (lo hi : Byte) : Statement (.ldaAbs lo hi) := ⟨rfl, rfl⟩
theorem ldxAbs (lo hi : Byte) : Statement (.ldxAbs lo hi) := ⟨rfl, rfl⟩
theorem laxAbs (lo hi : Byte) : Statement (.laxAbs lo hi) := ⟨rfl, rfl⟩
theorem bcsRel (off : Byte) : Statement (.bcsRel off) := ⟨rfl, rfl⟩
theorem ldaIzy (zp : Byte) : Statement (.ldaIzy zp) := ⟨rfl, rfl⟩
theorem jamB2 : Statement .jamB2 := ⟨rfl, rfl⟩
theorem laxIzy (zp : Byte) : Statement (.laxIzy zp) := ⟨rfl, rfl⟩
theorem ldyZpx (zp : Byte) : Statement (.ldyZpx zp) := ⟨rfl, rfl⟩
theorem ldaZpx (zp : Byte) : Statement (.ldaZpx zp) := ⟨rfl, rfl⟩
theorem ldxZpy (zp : Byte) : Statement (.ldxZpy zp) := ⟨rfl, rfl⟩
theorem laxZpy (zp : Byte) : Statement (.laxZpy zp) := ⟨rfl, rfl⟩
theorem clv : Statement .clv := ⟨rfl, rfl⟩
theorem ldaAby (lo hi : Byte) : Statement (.ldaAby lo hi) := ⟨rfl, rfl⟩
theorem tsx : Statement .tsx := ⟨rfl, rfl⟩
theorem lasAby (lo hi : Byte) : Statement (.lasAby lo hi) := ⟨rfl, rfl⟩
theorem ldyAbx (lo hi : Byte) : Statement (.ldyAbx lo hi) := ⟨rfl, rfl⟩
theorem ldaAbx (lo hi : Byte) : Statement (.ldaAbx lo hi) := ⟨rfl, rfl⟩
theorem ldxAby (lo hi : Byte) : Statement (.ldxAby lo hi) := ⟨rfl, rfl⟩
theorem laxAby (lo hi : Byte) : Statement (.laxAby lo hi) := ⟨rfl, rfl⟩
theorem cpyImm (imm : Byte) : Statement (.cpyImm imm) := ⟨rfl, rfl⟩
theorem cmpIzx (zp : Byte) : Statement (.cmpIzx zp) := ⟨rfl, rfl⟩
theorem nopImmC2 (imm : Byte) : Statement (.nopImmC2 imm) := ⟨rfl, rfl⟩
theorem dcpIzx (zp : Byte) : Statement (.dcpIzx zp) := ⟨rfl, rfl⟩
theorem cpyZp (zp : Byte) : Statement (.cpyZp zp) := ⟨rfl, rfl⟩
theorem cmpZp (zp : Byte) : Statement (.cmpZp zp) := ⟨rfl, rfl⟩
theorem decZp (zp : Byte) : Statement (.decZp zp) := ⟨rfl, rfl⟩
theorem dcpZp (zp : Byte) : Statement (.dcpZp zp) := ⟨rfl, rfl⟩
theorem iny : Statement .iny := ⟨rfl, rfl⟩
theorem cmpImm (imm : Byte) : Statement (.cmpImm imm) := ⟨rfl, rfl⟩
theorem dex : Statement .dex := ⟨rfl, rfl⟩
theorem sbxImm (imm : Byte) : Statement (.sbxImm imm) := ⟨rfl, rfl⟩
theorem cpyAbs (lo hi : Byte) : Statement (.cpyAbs lo hi) := ⟨rfl, rfl⟩
theorem cmpAbs (lo hi : Byte) : Statement (.cmpAbs lo hi) := ⟨rfl, rfl⟩
theorem decAbs (lo hi : Byte) : Statement (.decAbs lo hi) := ⟨rfl, rfl⟩
theorem dcpAbs (lo hi : Byte) : Statement (.dcpAbs lo hi) := ⟨rfl, rfl⟩
theorem bneRel (off : Byte) : Statement (.bneRel off) := ⟨rfl, rfl⟩
theorem cmpIzy (zp : Byte) : Statement (.cmpIzy zp) := ⟨rfl, rfl⟩
theorem jamD2 : Statement .jamD2 := ⟨rfl, rfl⟩
theorem dcpIzy (zp : Byte) : Statement (.dcpIzy zp) := ⟨rfl, rfl⟩
theorem nopZpxD4 (zp : Byte) : Statement (.nopZpxD4 zp) := ⟨rfl, rfl⟩
theorem cmpZpx (zp : Byte) : Statement (.cmpZpx zp) := ⟨rfl, rfl⟩
theorem decZpx (zp : Byte) : Statement (.decZpx zp) := ⟨rfl, rfl⟩
theorem dcpZpx (zp : Byte) : Statement (.dcpZpx zp) := ⟨rfl, rfl⟩
theorem cld : Statement .cld := ⟨rfl, rfl⟩
theorem cmpAby (lo hi : Byte) : Statement (.cmpAby lo hi) := ⟨rfl, rfl⟩
theorem nopDA : Statement .nopDA := ⟨rfl, rfl⟩
theorem dcpAby (lo hi : Byte) : Statement (.dcpAby lo hi) := ⟨rfl, rfl⟩
theorem nopAbxDC (lo hi : Byte) : Statement (.nopAbxDC lo hi) := ⟨rfl, rfl⟩
theorem cmpAbx (lo hi : Byte) : Statement (.cmpAbx lo hi) := ⟨rfl, rfl⟩
theorem decAbx (lo hi : Byte) : Statement (.decAbx lo hi) := ⟨rfl, rfl⟩
theorem dcpAbx (lo hi : Byte) : Statement (.dcpAbx lo hi) := ⟨rfl, rfl⟩
theorem cpxImm (imm : Byte) : Statement (.cpxImm imm) := ⟨rfl, rfl⟩
theorem sbcIzx (zp : Byte) : Statement (.sbcIzx zp) := ⟨rfl, rfl⟩
theorem nopImmE2 (imm : Byte) : Statement (.nopImmE2 imm) := ⟨rfl, rfl⟩
theorem iscIzx (zp : Byte) : Statement (.iscIzx zp) := ⟨rfl, rfl⟩
theorem cpxZp (zp : Byte) : Statement (.cpxZp zp) := ⟨rfl, rfl⟩
theorem sbcZp (zp : Byte) : Statement (.sbcZp zp) := ⟨rfl, rfl⟩
theorem incZp (zp : Byte) : Statement (.incZp zp) := ⟨rfl, rfl⟩
theorem iscZp (zp : Byte) : Statement (.iscZp zp) := ⟨rfl, rfl⟩
theorem inx : Statement .inx := ⟨rfl, rfl⟩
theorem sbcImm (imm : Byte) : Statement (.sbcImm imm) := ⟨rfl, rfl⟩
theorem nop : Statement .nop := ⟨rfl, rfl⟩
theorem usbcImm (imm : Byte) : Statement (.usbcImm imm) := ⟨rfl, rfl⟩
theorem cpxAbs (lo hi : Byte) : Statement (.cpxAbs lo hi) := ⟨rfl, rfl⟩
theorem sbcAbs (lo hi : Byte) : Statement (.sbcAbs lo hi) := ⟨rfl, rfl⟩
theorem incAbs (lo hi : Byte) : Statement (.incAbs lo hi) := ⟨rfl, rfl⟩
theorem iscAbs (lo hi : Byte) : Statement (.iscAbs lo hi) := ⟨rfl, rfl⟩
theorem beqRel (off : Byte) : Statement (.beqRel off) := ⟨rfl, rfl⟩
theorem sbcIzy (zp : Byte) : Statement (.sbcIzy zp) := ⟨rfl, rfl⟩
theorem jamF2 : Statement .jamF2 := ⟨rfl, rfl⟩
theorem iscIzy (zp : Byte) : Statement (.iscIzy zp) := ⟨rfl, rfl⟩
theorem nopZpxF4 (zp : Byte) : Statement (.nopZpxF4 zp) := ⟨rfl, rfl⟩
theorem sbcZpx (zp : Byte) : Statement (.sbcZpx zp) := ⟨rfl, rfl⟩
theorem incZpx (zp : Byte) : Statement (.incZpx zp) := ⟨rfl, rfl⟩
theorem iscZpx (zp : Byte) : Statement (.iscZpx zp) := ⟨rfl, rfl⟩
theorem sed : Statement .sed := ⟨rfl, rfl⟩
theorem sbcAby (lo hi : Byte) : Statement (.sbcAby lo hi) := ⟨rfl, rfl⟩
theorem nopFA : Statement .nopFA := ⟨rfl, rfl⟩
theorem iscAby (lo hi : Byte) : Statement (.iscAby lo hi) := ⟨rfl, rfl⟩
theorem nopAbxFC (lo hi : Byte) : Statement (.nopAbxFC lo hi) := ⟨rfl, rfl⟩
theorem sbcAbx (lo hi : Byte) : Statement (.sbcAbx lo hi) := ⟨rfl, rfl⟩
theorem incAbx (lo hi : Byte) : Statement (.incAbx lo hi) := ⟨rfl, rfl⟩
theorem iscAbx (lo hi : Byte) : Statement (.iscAbx lo hi) := ⟨rfl, rfl⟩

end Sys2Proof.Laws.EncodingShape
end

