-- ==== Sys2Proof/Tests/Slice0.lean ====
section
/-! SUPPORT. Tests: one step each, on small states.  The expected results of the instruction tests are the end states of
spec/95_test_vectors.md section 2, whose vector the name ends with; the words of the decode tests are written out from
the opcode map of 30_encoding.md R284.  The witnesses show states and operands that meet the hypotheses of the
statements in Certificates/Slice0/Obligations.lean. -/

set_option maxRecDepth 20000

namespace Sys2Proof.Machine

/-! ### Well-formed instructions -/

theorem test_wellformed_refuses_jam : WellFormed .jam02 = false := by decide
theorem test_wellformed_refuses_undocumented_nop : WellFormed (.nopZp04 0x10) = false := by decide
theorem test_wellformed_refuses_unstable : WellFormed (.usbcImm 0x01) = false := by decide
theorem test_wellformed_accepts_admitted : WellFormed (.laxZp 0x10) = true := by decide

/-! ### Decoding -/

/-- The instruction these bytes decode to, where they are exactly its bytes. -/
def readsAs (bs : List Byte) : Option Instr :=
  match decode bs with
  | .ok (i, []) => some i
  | _ => none

theorem test_decode_row_0 :
    readsAs [0x00] = some .brk ∧
    readsAs [0x01, 0x34] = some (.oraIzx 0x34) ∧
    readsAs [0x02] = some .jam02 ∧
    readsAs [0x03, 0x34] = some (.sloIzx 0x34) ∧
    readsAs [0x04, 0x34] = some (.nopZp04 0x34) ∧
    readsAs [0x05, 0x34] = some (.oraZp 0x34) ∧
    readsAs [0x06, 0x34] = some (.aslZp 0x34) ∧
    readsAs [0x07, 0x34] = some (.sloZp 0x34) ∧
    readsAs [0x08] = some .php ∧
    readsAs [0x09, 0x34] = some (.oraImm 0x34) ∧
    readsAs [0x0A] = some .aslAcc ∧
    readsAs [0x0B, 0x34] = some (.ancImm0B 0x34) ∧
    readsAs [0x0C, 0x34, 0x12] = some (.nopAbs0C 0x34 0x12) ∧
    readsAs [0x0D, 0x34, 0x12] = some (.oraAbs 0x34 0x12) ∧
    readsAs [0x0E, 0x34, 0x12] = some (.aslAbs 0x34 0x12) ∧
    readsAs [0x0F, 0x34, 0x12] = some (.sloAbs 0x34 0x12) := by decide

theorem test_decode_row_1 :
    readsAs [0x10, 0x34] = some (.bplRel 0x34) ∧
    readsAs [0x11, 0x34] = some (.oraIzy 0x34) ∧
    readsAs [0x12] = some .jam12 ∧
    readsAs [0x13, 0x34] = some (.sloIzy 0x34) ∧
    readsAs [0x14, 0x34] = some (.nopZpx14 0x34) ∧
    readsAs [0x15, 0x34] = some (.oraZpx 0x34) ∧
    readsAs [0x16, 0x34] = some (.aslZpx 0x34) ∧
    readsAs [0x17, 0x34] = some (.sloZpx 0x34) ∧
    readsAs [0x18] = some .clc ∧
    readsAs [0x19, 0x34, 0x12] = some (.oraAby 0x34 0x12) ∧
    readsAs [0x1A] = some .nop1A ∧
    readsAs [0x1B, 0x34, 0x12] = some (.sloAby 0x34 0x12) ∧
    readsAs [0x1C, 0x34, 0x12] = some (.nopAbx1C 0x34 0x12) ∧
    readsAs [0x1D, 0x34, 0x12] = some (.oraAbx 0x34 0x12) ∧
    readsAs [0x1E, 0x34, 0x12] = some (.aslAbx 0x34 0x12) ∧
    readsAs [0x1F, 0x34, 0x12] = some (.sloAbx 0x34 0x12) := by decide

theorem test_decode_row_2 :
    readsAs [0x20, 0x34, 0x12] = some (.jsrAbs 0x34 0x12) ∧
    readsAs [0x21, 0x34] = some (.andIzx 0x34) ∧
    readsAs [0x22] = some .jam22 ∧
    readsAs [0x23, 0x34] = some (.rlaIzx 0x34) ∧
    readsAs [0x24, 0x34] = some (.bitZp 0x34) ∧
    readsAs [0x25, 0x34] = some (.andZp 0x34) ∧
    readsAs [0x26, 0x34] = some (.rolZp 0x34) ∧
    readsAs [0x27, 0x34] = some (.rlaZp 0x34) ∧
    readsAs [0x28] = some .plp ∧
    readsAs [0x29, 0x34] = some (.andImm 0x34) ∧
    readsAs [0x2A] = some .rolAcc ∧
    readsAs [0x2B, 0x34] = some (.ancImm2B 0x34) ∧
    readsAs [0x2C, 0x34, 0x12] = some (.bitAbs 0x34 0x12) ∧
    readsAs [0x2D, 0x34, 0x12] = some (.andAbs 0x34 0x12) ∧
    readsAs [0x2E, 0x34, 0x12] = some (.rolAbs 0x34 0x12) ∧
    readsAs [0x2F, 0x34, 0x12] = some (.rlaAbs 0x34 0x12) := by decide

theorem test_decode_row_3 :
    readsAs [0x30, 0x34] = some (.bmiRel 0x34) ∧
    readsAs [0x31, 0x34] = some (.andIzy 0x34) ∧
    readsAs [0x32] = some .jam32 ∧
    readsAs [0x33, 0x34] = some (.rlaIzy 0x34) ∧
    readsAs [0x34, 0x34] = some (.nopZpx34 0x34) ∧
    readsAs [0x35, 0x34] = some (.andZpx 0x34) ∧
    readsAs [0x36, 0x34] = some (.rolZpx 0x34) ∧
    readsAs [0x37, 0x34] = some (.rlaZpx 0x34) ∧
    readsAs [0x38] = some .sec ∧
    readsAs [0x39, 0x34, 0x12] = some (.andAby 0x34 0x12) ∧
    readsAs [0x3A] = some .nop3A ∧
    readsAs [0x3B, 0x34, 0x12] = some (.rlaAby 0x34 0x12) ∧
    readsAs [0x3C, 0x34, 0x12] = some (.nopAbx3C 0x34 0x12) ∧
    readsAs [0x3D, 0x34, 0x12] = some (.andAbx 0x34 0x12) ∧
    readsAs [0x3E, 0x34, 0x12] = some (.rolAbx 0x34 0x12) ∧
    readsAs [0x3F, 0x34, 0x12] = some (.rlaAbx 0x34 0x12) := by decide

theorem test_decode_row_4 :
    readsAs [0x40] = some .rti ∧
    readsAs [0x41, 0x34] = some (.eorIzx 0x34) ∧
    readsAs [0x42] = some .jam42 ∧
    readsAs [0x43, 0x34] = some (.sreIzx 0x34) ∧
    readsAs [0x44, 0x34] = some (.nopZp44 0x34) ∧
    readsAs [0x45, 0x34] = some (.eorZp 0x34) ∧
    readsAs [0x46, 0x34] = some (.lsrZp 0x34) ∧
    readsAs [0x47, 0x34] = some (.sreZp 0x34) ∧
    readsAs [0x48] = some .pha ∧
    readsAs [0x49, 0x34] = some (.eorImm 0x34) ∧
    readsAs [0x4A] = some .lsrAcc ∧
    readsAs [0x4B, 0x34] = some (.alrImm 0x34) ∧
    readsAs [0x4C, 0x34, 0x12] = some (.jmpAbs 0x34 0x12) ∧
    readsAs [0x4D, 0x34, 0x12] = some (.eorAbs 0x34 0x12) ∧
    readsAs [0x4E, 0x34, 0x12] = some (.lsrAbs 0x34 0x12) ∧
    readsAs [0x4F, 0x34, 0x12] = some (.sreAbs 0x34 0x12) := by decide

theorem test_decode_row_5 :
    readsAs [0x50, 0x34] = some (.bvcRel 0x34) ∧
    readsAs [0x51, 0x34] = some (.eorIzy 0x34) ∧
    readsAs [0x52] = some .jam52 ∧
    readsAs [0x53, 0x34] = some (.sreIzy 0x34) ∧
    readsAs [0x54, 0x34] = some (.nopZpx54 0x34) ∧
    readsAs [0x55, 0x34] = some (.eorZpx 0x34) ∧
    readsAs [0x56, 0x34] = some (.lsrZpx 0x34) ∧
    readsAs [0x57, 0x34] = some (.sreZpx 0x34) ∧
    readsAs [0x58] = some .cli ∧
    readsAs [0x59, 0x34, 0x12] = some (.eorAby 0x34 0x12) ∧
    readsAs [0x5A] = some .nop5A ∧
    readsAs [0x5B, 0x34, 0x12] = some (.sreAby 0x34 0x12) ∧
    readsAs [0x5C, 0x34, 0x12] = some (.nopAbx5C 0x34 0x12) ∧
    readsAs [0x5D, 0x34, 0x12] = some (.eorAbx 0x34 0x12) ∧
    readsAs [0x5E, 0x34, 0x12] = some (.lsrAbx 0x34 0x12) ∧
    readsAs [0x5F, 0x34, 0x12] = some (.sreAbx 0x34 0x12) := by decide

theorem test_decode_row_6 :
    readsAs [0x60] = some .rts ∧
    readsAs [0x61, 0x34] = some (.adcIzx 0x34) ∧
    readsAs [0x62] = some .jam62 ∧
    readsAs [0x63, 0x34] = some (.rraIzx 0x34) ∧
    readsAs [0x64, 0x34] = some (.nopZp64 0x34) ∧
    readsAs [0x65, 0x34] = some (.adcZp 0x34) ∧
    readsAs [0x66, 0x34] = some (.rorZp 0x34) ∧
    readsAs [0x67, 0x34] = some (.rraZp 0x34) ∧
    readsAs [0x68] = some .pla ∧
    readsAs [0x69, 0x34] = some (.adcImm 0x34) ∧
    readsAs [0x6A] = some .rorAcc ∧
    readsAs [0x6B, 0x34] = some (.arrImm 0x34) ∧
    readsAs [0x6C, 0x34, 0x12] = some (.jmpInd 0x34 0x12) ∧
    readsAs [0x6D, 0x34, 0x12] = some (.adcAbs 0x34 0x12) ∧
    readsAs [0x6E, 0x34, 0x12] = some (.rorAbs 0x34 0x12) ∧
    readsAs [0x6F, 0x34, 0x12] = some (.rraAbs 0x34 0x12) := by decide

theorem test_decode_row_7 :
    readsAs [0x70, 0x34] = some (.bvsRel 0x34) ∧
    readsAs [0x71, 0x34] = some (.adcIzy 0x34) ∧
    readsAs [0x72] = some .jam72 ∧
    readsAs [0x73, 0x34] = some (.rraIzy 0x34) ∧
    readsAs [0x74, 0x34] = some (.nopZpx74 0x34) ∧
    readsAs [0x75, 0x34] = some (.adcZpx 0x34) ∧
    readsAs [0x76, 0x34] = some (.rorZpx 0x34) ∧
    readsAs [0x77, 0x34] = some (.rraZpx 0x34) ∧
    readsAs [0x78] = some .sei ∧
    readsAs [0x79, 0x34, 0x12] = some (.adcAby 0x34 0x12) ∧
    readsAs [0x7A] = some .nop7A ∧
    readsAs [0x7B, 0x34, 0x12] = some (.rraAby 0x34 0x12) ∧
    readsAs [0x7C, 0x34, 0x12] = some (.nopAbx7C 0x34 0x12) ∧
    readsAs [0x7D, 0x34, 0x12] = some (.adcAbx 0x34 0x12) ∧
    readsAs [0x7E, 0x34, 0x12] = some (.rorAbx 0x34 0x12) ∧
    readsAs [0x7F, 0x34, 0x12] = some (.rraAbx 0x34 0x12) := by decide

theorem test_decode_row_8 :
    readsAs [0x80, 0x34] = some (.nopImm80 0x34) ∧
    readsAs [0x81, 0x34] = some (.staIzx 0x34) ∧
    readsAs [0x82, 0x34] = some (.nopImm82 0x34) ∧
    readsAs [0x83, 0x34] = some (.saxIzx 0x34) ∧
    readsAs [0x84, 0x34] = some (.styZp 0x34) ∧
    readsAs [0x85, 0x34] = some (.staZp 0x34) ∧
    readsAs [0x86, 0x34] = some (.stxZp 0x34) ∧
    readsAs [0x87, 0x34] = some (.saxZp 0x34) ∧
    readsAs [0x88] = some .dey ∧
    readsAs [0x89, 0x34] = some (.nopImm89 0x34) ∧
    readsAs [0x8A] = some .txa ∧
    readsAs [0x8B, 0x34] = some (.aneImm 0x34) ∧
    readsAs [0x8C, 0x34, 0x12] = some (.styAbs 0x34 0x12) ∧
    readsAs [0x8D, 0x34, 0x12] = some (.staAbs 0x34 0x12) ∧
    readsAs [0x8E, 0x34, 0x12] = some (.stxAbs 0x34 0x12) ∧
    readsAs [0x8F, 0x34, 0x12] = some (.saxAbs 0x34 0x12) := by decide

theorem test_decode_row_9 :
    readsAs [0x90, 0x34] = some (.bccRel 0x34) ∧
    readsAs [0x91, 0x34] = some (.staIzy 0x34) ∧
    readsAs [0x92] = some .jam92 ∧
    readsAs [0x93, 0x34] = some (.shaIzy 0x34) ∧
    readsAs [0x94, 0x34] = some (.styZpx 0x34) ∧
    readsAs [0x95, 0x34] = some (.staZpx 0x34) ∧
    readsAs [0x96, 0x34] = some (.stxZpy 0x34) ∧
    readsAs [0x97, 0x34] = some (.saxZpy 0x34) ∧
    readsAs [0x98] = some .tya ∧
    readsAs [0x99, 0x34, 0x12] = some (.staAby 0x34 0x12) ∧
    readsAs [0x9A] = some .txs ∧
    readsAs [0x9B, 0x34, 0x12] = some (.tasAby 0x34 0x12) ∧
    readsAs [0x9C, 0x34, 0x12] = some (.shyAbx 0x34 0x12) ∧
    readsAs [0x9D, 0x34, 0x12] = some (.staAbx 0x34 0x12) ∧
    readsAs [0x9E, 0x34, 0x12] = some (.shxAby 0x34 0x12) ∧
    readsAs [0x9F, 0x34, 0x12] = some (.shaAby 0x34 0x12) := by decide

theorem test_decode_row_A :
    readsAs [0xA0, 0x34] = some (.ldyImm 0x34) ∧
    readsAs [0xA1, 0x34] = some (.ldaIzx 0x34) ∧
    readsAs [0xA2, 0x34] = some (.ldxImm 0x34) ∧
    readsAs [0xA3, 0x34] = some (.laxIzx 0x34) ∧
    readsAs [0xA4, 0x34] = some (.ldyZp 0x34) ∧
    readsAs [0xA5, 0x34] = some (.ldaZp 0x34) ∧
    readsAs [0xA6, 0x34] = some (.ldxZp 0x34) ∧
    readsAs [0xA7, 0x34] = some (.laxZp 0x34) ∧
    readsAs [0xA8] = some .tay ∧
    readsAs [0xA9, 0x34] = some (.ldaImm 0x34) ∧
    readsAs [0xAA] = some .tax ∧
    readsAs [0xAB, 0x34] = some (.lxaImm 0x34) ∧
    readsAs [0xAC, 0x34, 0x12] = some (.ldyAbs 0x34 0x12) ∧
    readsAs [0xAD, 0x34, 0x12] = some (.ldaAbs 0x34 0x12) ∧
    readsAs [0xAE, 0x34, 0x12] = some (.ldxAbs 0x34 0x12) ∧
    readsAs [0xAF, 0x34, 0x12] = some (.laxAbs 0x34 0x12) := by decide

theorem test_decode_row_B :
    readsAs [0xB0, 0x34] = some (.bcsRel 0x34) ∧
    readsAs [0xB1, 0x34] = some (.ldaIzy 0x34) ∧
    readsAs [0xB2] = some .jamB2 ∧
    readsAs [0xB3, 0x34] = some (.laxIzy 0x34) ∧
    readsAs [0xB4, 0x34] = some (.ldyZpx 0x34) ∧
    readsAs [0xB5, 0x34] = some (.ldaZpx 0x34) ∧
    readsAs [0xB6, 0x34] = some (.ldxZpy 0x34) ∧
    readsAs [0xB7, 0x34] = some (.laxZpy 0x34) ∧
    readsAs [0xB8] = some .clv ∧
    readsAs [0xB9, 0x34, 0x12] = some (.ldaAby 0x34 0x12) ∧
    readsAs [0xBA] = some .tsx ∧
    readsAs [0xBB, 0x34, 0x12] = some (.lasAby 0x34 0x12) ∧
    readsAs [0xBC, 0x34, 0x12] = some (.ldyAbx 0x34 0x12) ∧
    readsAs [0xBD, 0x34, 0x12] = some (.ldaAbx 0x34 0x12) ∧
    readsAs [0xBE, 0x34, 0x12] = some (.ldxAby 0x34 0x12) ∧
    readsAs [0xBF, 0x34, 0x12] = some (.laxAby 0x34 0x12) := by decide

theorem test_decode_row_C :
    readsAs [0xC0, 0x34] = some (.cpyImm 0x34) ∧
    readsAs [0xC1, 0x34] = some (.cmpIzx 0x34) ∧
    readsAs [0xC2, 0x34] = some (.nopImmC2 0x34) ∧
    readsAs [0xC3, 0x34] = some (.dcpIzx 0x34) ∧
    readsAs [0xC4, 0x34] = some (.cpyZp 0x34) ∧
    readsAs [0xC5, 0x34] = some (.cmpZp 0x34) ∧
    readsAs [0xC6, 0x34] = some (.decZp 0x34) ∧
    readsAs [0xC7, 0x34] = some (.dcpZp 0x34) ∧
    readsAs [0xC8] = some .iny ∧
    readsAs [0xC9, 0x34] = some (.cmpImm 0x34) ∧
    readsAs [0xCA] = some .dex ∧
    readsAs [0xCB, 0x34] = some (.sbxImm 0x34) ∧
    readsAs [0xCC, 0x34, 0x12] = some (.cpyAbs 0x34 0x12) ∧
    readsAs [0xCD, 0x34, 0x12] = some (.cmpAbs 0x34 0x12) ∧
    readsAs [0xCE, 0x34, 0x12] = some (.decAbs 0x34 0x12) ∧
    readsAs [0xCF, 0x34, 0x12] = some (.dcpAbs 0x34 0x12) := by decide

theorem test_decode_row_D :
    readsAs [0xD0, 0x34] = some (.bneRel 0x34) ∧
    readsAs [0xD1, 0x34] = some (.cmpIzy 0x34) ∧
    readsAs [0xD2] = some .jamD2 ∧
    readsAs [0xD3, 0x34] = some (.dcpIzy 0x34) ∧
    readsAs [0xD4, 0x34] = some (.nopZpxD4 0x34) ∧
    readsAs [0xD5, 0x34] = some (.cmpZpx 0x34) ∧
    readsAs [0xD6, 0x34] = some (.decZpx 0x34) ∧
    readsAs [0xD7, 0x34] = some (.dcpZpx 0x34) ∧
    readsAs [0xD8] = some .cld ∧
    readsAs [0xD9, 0x34, 0x12] = some (.cmpAby 0x34 0x12) ∧
    readsAs [0xDA] = some .nopDA ∧
    readsAs [0xDB, 0x34, 0x12] = some (.dcpAby 0x34 0x12) ∧
    readsAs [0xDC, 0x34, 0x12] = some (.nopAbxDC 0x34 0x12) ∧
    readsAs [0xDD, 0x34, 0x12] = some (.cmpAbx 0x34 0x12) ∧
    readsAs [0xDE, 0x34, 0x12] = some (.decAbx 0x34 0x12) ∧
    readsAs [0xDF, 0x34, 0x12] = some (.dcpAbx 0x34 0x12) := by decide

theorem test_decode_row_E :
    readsAs [0xE0, 0x34] = some (.cpxImm 0x34) ∧
    readsAs [0xE1, 0x34] = some (.sbcIzx 0x34) ∧
    readsAs [0xE2, 0x34] = some (.nopImmE2 0x34) ∧
    readsAs [0xE3, 0x34] = some (.iscIzx 0x34) ∧
    readsAs [0xE4, 0x34] = some (.cpxZp 0x34) ∧
    readsAs [0xE5, 0x34] = some (.sbcZp 0x34) ∧
    readsAs [0xE6, 0x34] = some (.incZp 0x34) ∧
    readsAs [0xE7, 0x34] = some (.iscZp 0x34) ∧
    readsAs [0xE8] = some .inx ∧
    readsAs [0xE9, 0x34] = some (.sbcImm 0x34) ∧
    readsAs [0xEA] = some .nop ∧
    readsAs [0xEB, 0x34] = some (.usbcImm 0x34) ∧
    readsAs [0xEC, 0x34, 0x12] = some (.cpxAbs 0x34 0x12) ∧
    readsAs [0xED, 0x34, 0x12] = some (.sbcAbs 0x34 0x12) ∧
    readsAs [0xEE, 0x34, 0x12] = some (.incAbs 0x34 0x12) ∧
    readsAs [0xEF, 0x34, 0x12] = some (.iscAbs 0x34 0x12) := by decide

theorem test_decode_row_F :
    readsAs [0xF0, 0x34] = some (.beqRel 0x34) ∧
    readsAs [0xF1, 0x34] = some (.sbcIzy 0x34) ∧
    readsAs [0xF2] = some .jamF2 ∧
    readsAs [0xF3, 0x34] = some (.iscIzy 0x34) ∧
    readsAs [0xF4, 0x34] = some (.nopZpxF4 0x34) ∧
    readsAs [0xF5, 0x34] = some (.sbcZpx 0x34) ∧
    readsAs [0xF6, 0x34] = some (.incZpx 0x34) ∧
    readsAs [0xF7, 0x34] = some (.iscZpx 0x34) ∧
    readsAs [0xF8] = some .sed ∧
    readsAs [0xF9, 0x34, 0x12] = some (.sbcAby 0x34 0x12) ∧
    readsAs [0xFA] = some .nopFA ∧
    readsAs [0xFB, 0x34, 0x12] = some (.iscAby 0x34 0x12) ∧
    readsAs [0xFC, 0x34, 0x12] = some (.nopAbxFC 0x34 0x12) ∧
    readsAs [0xFD, 0x34, 0x12] = some (.sbcAbx 0x34 0x12) ∧
    readsAs [0xFE, 0x34, 0x12] = some (.incAbx 0x34 0x12) ∧
    readsAs [0xFF, 0x34, 0x12] = some (.iscAbx 0x34 0x12) := by decide

/-- Bit 0 of a table word is bit 0 of the opcode; the later bytes count on from it. -/
theorem test_decodeTableWord : decodeTableWord 24 0x12341E = some (.aslAbx 0x34 0x12) ∧
    decodeTableWord 8 0xFFA9 = some (.ldaImm 0x00) := by decide

/-- An instruction that is cut short does not decode. -/
theorem test_decode_truncated : decode [0xAD, 0x34] = .error (.truncated 0xAD) ∧ decode [] = .error .noOpcode :=
  ⟨rfl, rfl⟩

/-! ### Instructions -/

/-- The power-on machine with these bytes in RAM and these registers, its reset sequence already over. -/
def placed (mem : List (Nat × List Byte)) (r : Regs) : State :=
  let s := mem.foldl (fun s p => loadRam p.1 p.2 s) State.reset
  { s with regs := r, latches := { s.latches with resetPending := false } }

/-- Registers A, X, Y, S, PC and P; P is written as the byte N V - - D I Z C. -/
def cpu (a x y s : Byte) (pc : Word) (p : Byte) : Regs := ⟨a, x, y, s, pc, Flags.ofByte p⟩

/-- One step takes `cycles` bus cycles and leaves a state that passes `check`. -/
def gives (s : State) (cycles : Nat) (check : State → Bool) : Bool :=
  match step s with
  | .next t => decide (t.ticks.length = cycles) && check t
  | _ => false

/-- The step is refused for this reason. -/
def refuses (s : State) (r : Refusal) : Bool :=
  match step s with
  | .refused q => decide (q = r)
  | _ => false

/-- The step faults for this reason. -/
def faults (s : State) (f : Fault) : Bool :=
  match step s with
  | .fault g => decide (g = f)
  | _ => false

/-- The addresses of the bus cycles, first one first. -/
def busTrace (t : State) : List Nat := t.ticks.reverse.map fun k => k.addr.toNat

theorem test_ldaImm_ls2 :
    gives (placed [(0xC000, [0xA9, 0x80])] (cpu 0 0 0 0xFD 0xC000 0)) 2 (fun t =>
      decide (t.regs.a = 0x80) && t.regs.p.n && !t.regs.p.z) = true := by decide

theorem test_ldaIzy_ls7 :
    gives (placed [(0x10, [0xFF]), (0x11, [0x10]), (0x1100, [0x5A]), (0xC000, [0xB1, 0x10])]
      (cpu 0 0 0x01 0xFD 0xC000 0)) 6 (fun t =>
      decide (t.regs.a = 0x5A) &&
      decide (busTrace t = [0xC000, 0xC001, 0x0010, 0x0011, 0x1000, 0x1100])) = true := by decide

theorem test_ldxZpy_ls8 :
    gives (placed [(0xC000, [0xB6, 0xF0])] (cpu 0 0 0x20 0xFD 0xC000 0)) 4 (fun t =>
      decide (t.regs.x = 0x00) && t.regs.p.z) = true := by decide

theorem test_ldyImm_ls9 :
    gives (placed [(0xC000, [0xA0, 0xFF])] (cpu 0 0 0 0xFD 0xC000 0)) 2 (fun t =>
      decide (t.regs.y = 0xFF) && t.regs.p.n) = true := by decide

theorem test_staAbx_ls10 :
    gives (placed [(0xC000, [0x9D, 0xFF, 0x10])] (cpu 0x77 0x01 0 0xFD 0xC000 0)) 5 (fun t =>
      decide (Memory.read t.ram 0x1100 = 0x77) &&
      decide (busTrace t = [0xC000, 0xC001, 0xC002, 0x1000, 0x1100])) = true := by decide

theorem test_staIzy_ls12 :
    gives (placed [(0x10, [0x00]), (0x11, [0x20]), (0xC000, [0x91, 0x10])]
      (cpu 0x66 0 0 0xFD 0xC000 0)) 6 (fun t =>
      decide (Memory.read t.ram 0x2000 = 0x66)) = true := by decide

theorem test_stxZpy_ls13 :
    gives (placed [(0xC000, [0x96, 0x10])] (cpu 0 0x33 0xF5 0xFD 0xC000 0)) 4 (fun t =>
      decide (Memory.read t.ram 0x0005 = 0x33)) = true := by decide

theorem test_styAbs_ls14 :
    gives (placed [(0xC000, [0x8C, 0x34, 0x12])] (cpu 0 0 0x44 0xFD 0xC000 0)) 4 (fun t =>
      decide (Memory.read t.ram 0x1234 = 0x44)) = true := by decide

theorem test_tax_ls15 :
    gives (placed [(0xC000, [0xAA])] (cpu 0 0x05 0 0xFD 0xC000 0)) 2 (fun t =>
      decide (t.regs.x = 0x00) && t.regs.p.z && !t.regs.p.n) = true := by decide

theorem test_tsx_ls16 :
    gives (placed [(0xC000, [0xBA])] (cpu 0 0 0 0xFD 0xC000 0)) 2 (fun t =>
      decide (t.regs.x = 0xFD) && t.regs.p.n && !t.regs.p.z) = true := by decide

theorem test_txs_ls17 :
    gives (placed [(0xC000, [0x9A])] (cpu 0 0 0 0xFD 0xC000 0x80)) 2 (fun t =>
      decide (t.regs.s = 0x00) && t.regs.p.n && !t.regs.p.z) = true := by decide

theorem test_tya_ls18 :
    gives (placed [(0xC000, [0x98])] (cpu 0 0 0x80 0xFD 0xC000 0)) 2 (fun t =>
      decide (t.regs.a = 0x80) && t.regs.p.n) = true := by decide

theorem test_pha_ls19 :
    gives (placed [(0xC000, [0x48])] (cpu 0x42 0 0 0xFD 0xC000 0)) 3 (fun t =>
      decide (t.regs.s = 0xFC) && decide (Memory.read t.ram 0x01FD = 0x42) &&
      decide (busTrace t = [0xC000, 0xC001, 0x01FD])) = true := by decide

theorem test_php_ls20 :
    gives (placed [(0xC000, [0x08])] (cpu 0 0 0 0xFD 0xC000 0x04)) 3 (fun t =>
      decide (t.regs.s = 0xFC) && decide (Memory.read t.ram 0x01FD = 0x34)) = true := by decide

theorem test_pla_ls21 :
    gives (placed [(0x1FD, [0x00]), (0xC000, [0x68])] (cpu 0x09 0 0 0xFC 0xC000 0)) 4 (fun t =>
      decide (t.regs.a = 0x00) && decide (t.regs.s = 0xFD) && t.regs.p.z &&
      decide (busTrace t = [0xC000, 0xC001, 0x01FC, 0x01FD])) = true := by decide

theorem test_plp_ls22 :
    gives (placed [(0x1FD, [0xFF]), (0xC000, [0x28])] (cpu 0 0 0 0xFC 0xC000 0)) 4 (fun t =>
      decide (t.regs.s = 0xFD) && t.regs.p.n && t.regs.p.v && t.regs.p.d && t.regs.p.i &&
      t.regs.p.z && t.regs.p.c) = true := by decide

theorem test_adcImm_ar2 :
    gives (placed [(0xC000, [0x69, 0x01])] (cpu 0x7F 0 0 0xFD 0xC000 0)) 2 (fun t =>
      decide (t.regs.pc = 0xC002) && decide (t.regs.a = 0x80) && t.regs.p.n && t.regs.p.v &&
      !t.regs.p.z && !t.regs.p.c) = true := by decide

theorem test_adcImm_ar5 :
    gives (placed [(0xC000, [0x69, 0x46])] (cpu 0x58 0 0 0xFD 0xC000 0x09)) 2 (fun t =>
      decide (t.regs.pc = 0xC002) && decide (t.regs.a = 0x05) && t.regs.p.n && t.regs.p.v &&
      t.regs.p.d && !t.regs.p.z && t.regs.p.c) = true := by decide

theorem test_sbcImm_ar11 :
    gives (placed [(0xC000, [0xE9, 0x01])] (cpu 0 0 0 0xFD 0xC000 0x01)) 2 (fun t =>
      decide (t.regs.pc = 0xC002) && decide (t.regs.a = 0xFF) && t.regs.p.n && !t.regs.p.v &&
      !t.regs.p.z && !t.regs.p.c) = true := by decide

theorem test_sbcImm_ar15 :
    gives (placed [(0xC000, [0xE9, 0x01])] (cpu 0 0 0 0xFD 0xC000 0x09)) 2 (fun t =>
      decide (t.regs.pc = 0xC002) && decide (t.regs.a = 0x99) && t.regs.p.n && !t.regs.p.v &&
      t.regs.p.d && !t.regs.p.z && !t.regs.p.c) = true := by decide

theorem test_andImm_lg1 :
    gives (placed [(0xC000, [0x29, 0x0F])] (cpu 0xF0 0 0 0xFD 0xC000 0)) 2 (fun t =>
      decide (t.regs.a = 0x00) && !t.regs.p.n && t.regs.p.z) = true := by decide

theorem test_oraImm_lg2 :
    gives (placed [(0xC000, [0x09, 0x80])] (cpu 0x01 0 0 0xFD 0xC000 0)) 2 (fun t =>
      decide (t.regs.a = 0x81) && t.regs.p.n && !t.regs.p.z) = true := by decide

theorem test_eorImm_lg3 :
    gives (placed [(0xC000, [0x49, 0xFF])] (cpu 0xFF 0 0 0xFD 0xC000 0)) 2 (fun t =>
      decide (t.regs.a = 0x00) && t.regs.p.z) = true := by decide

theorem test_bitZp_lg4 :
    gives (placed [(0x10, [0xC0]), (0xC000, [0x24, 0x10])] (cpu 0x01 0 0 0xFD 0xC000 0)) 3 (fun t =>
      decide (t.regs.a = 0x01) && t.regs.p.n && t.regs.p.v && t.regs.p.z) = true := by decide

theorem test_bitZp_lg5 :
    gives (placed [(0x10, [0x40]), (0xC000, [0x24, 0x10])] (cpu 0x40 0 0 0xFD 0xC000 0x80)) 3 (fun t =>
      !t.regs.p.n && t.regs.p.v && !t.regs.p.z) = true := by decide

theorem test_cmpImm_lg6 :
    gives (placed [(0xC000, [0xC9, 0x20])] (cpu 0x10 0 0 0xFD 0xC000 0)) 2 (fun t =>
      decide (t.regs.a = 0x10) && t.regs.p.n && !t.regs.p.z && !t.regs.p.c) = true := by decide

theorem test_cmpImm_lg7 :
    gives (placed [(0xC000, [0xC9, 0x10])] (cpu 0x10 0 0 0xFD 0xC000 0)) 2 (fun t =>
      !t.regs.p.n && t.regs.p.z && t.regs.p.c) = true := by decide

theorem test_cpxImm_lg9 :
    gives (placed [(0xC000, [0xE0, 0x05])] (cpu 0 0x05 0 0xFD 0xC000 0)) 2 (fun t =>
      !t.regs.p.n && t.regs.p.z && t.regs.p.c) = true := by decide

theorem test_cpyImm_lg10 :
    gives (placed [(0xC000, [0xC0, 0xFF])] (cpu 0 0 0 0xFD 0xC000 0)) 2 (fun t =>
      !t.regs.p.n && !t.regs.p.z && !t.regs.p.c) = true := by decide

theorem test_incZp_id1 :
    gives (placed [(0x10, [0xFF]), (0xC000, [0xE6, 0x10])] (cpu 0 0 0 0xFD 0xC000 0)) 5 (fun t =>
      !t.regs.p.n && t.regs.p.z && decide (Memory.read t.ram 0x0010 = 0x00) &&
      decide (busTrace t = [0xC000, 0xC001, 0x0010, 0x0010, 0x0010])) = true := by decide

theorem test_decZp_id2 :
    gives (placed [(0x10, [0x00]), (0xC000, [0xC6, 0x10])] (cpu 0 0 0 0xFD 0xC000 0)) 5 (fun t =>
      t.regs.p.n && !t.regs.p.z && decide (Memory.read t.ram 0x10 = 0xFF)) = true := by decide

theorem test_inx_id4 :
    gives (placed [(0xC000, [0xE8])] (cpu 0 0xFF 0 0xFD 0xC000 0)) 2 (fun t =>
      decide (t.regs.x = 0x00) && t.regs.p.z) = true := by decide

theorem test_dex_id5 :
    gives (placed [(0xC000, [0xCA])] (cpu 0 0 0 0xFD 0xC000 0)) 2 (fun t =>
      decide (t.regs.x = 0xFF) && t.regs.p.n) = true := by decide

theorem test_iny_id6 :
    gives (placed [(0xC000, [0xC8])] (cpu 0 0 0x7F 0xFD 0xC000 0)) 2 (fun t =>
      decide (t.regs.y = 0x80) && t.regs.p.n) = true := by decide

theorem test_dey_id7 :
    gives (placed [(0xC000, [0x88])] (cpu 0 0 0x01 0xFD 0xC000 0)) 2 (fun t =>
      decide (t.regs.y = 0x00) && t.regs.p.z) = true := by decide

theorem test_aslAcc_sh1 :
    gives (placed [(0xC000, [0x0A])] (cpu 0x80 0 0 0xFD 0xC000 0)) 2 (fun t =>
      decide (t.regs.a = 0x00) && !t.regs.p.n && t.regs.p.z && t.regs.p.c) = true := by decide

theorem test_lsrAcc_sh2 :
    gives (placed [(0xC000, [0x4A])] (cpu 0x01 0 0 0xFD 0xC000 0x80)) 2 (fun t =>
      decide (t.regs.a = 0x00) && !t.regs.p.n && t.regs.p.z && t.regs.p.c) = true := by decide

theorem test_rolAcc_sh3 :
    gives (placed [(0xC000, [0x2A])] (cpu 0x80 0 0 0xFD 0xC000 0x01)) 2 (fun t =>
      decide (t.regs.a = 0x01) && !t.regs.p.n && !t.regs.p.z && t.regs.p.c) = true := by decide

theorem test_rorAcc_sh4 :
    gives (placed [(0xC000, [0x6A])] (cpu 0x01 0 0 0xFD 0xC000 0x01)) 2 (fun t =>
      decide (t.regs.a = 0x80) && t.regs.p.n && !t.regs.p.z && t.regs.p.c) = true := by decide

theorem test_rolAbx_sh8 :
    gives (placed [(0x1244, [0x00]), (0xC000, [0x3E, 0x34, 0x12])] (cpu 0 0x10 0 0xFD 0xC000 0x01)) 7 (fun t =>
      !t.regs.p.n && !t.regs.p.z && !t.regs.p.c && decide (Memory.read t.ram 0x1244 = 0x01)) = true := by decide

theorem test_bccRel_br1 :
    gives (placed [(0x1000, [0x90, 0x10])] (cpu 0 0 0 0xFD 0x1000 0)) 3 (fun t =>
      decide (t.regs.pc = 0x1012)) = true := by decide

theorem test_bcsRel_br2 :
    gives (placed [(0x1000, [0xB0, 0x10])] (cpu 0 0 0 0xFD 0x1000 0)) 2 (fun t =>
      decide (t.regs.pc = 0x1002)) = true := by decide

theorem test_beqRel_br3 :
    gives (placed [(0x10F0, [0xF0, 0x20])] (cpu 0 0 0 0xFD 0x10F0 0x02)) 4 (fun t =>
      decide (t.regs.pc = 0x1112) &&
      decide (busTrace t = [0x10F0, 0x10F1, 0x10F2, 0x1012])) = true := by decide

theorem test_bmiRel_br4 :
    gives (placed [(0x1000, [0x30, 0xFE])] (cpu 0 0 0 0xFD 0x1000 0x80)) 3 (fun t =>
      decide (t.regs.pc = 0x1000)) = true := by decide

theorem test_bneRel_br5 :
    gives (placed [(0x1005, [0xD0, 0xF9])] (cpu 0 0 0 0xFD 0x1005 0)) 3 (fun t =>
      decide (t.regs.pc = 0x1000) &&
      decide (busTrace t = [0x1005, 0x1006, 0x1007])) = true := by decide

theorem test_bplRel_br6 :
    gives (placed [(0x1080, [0x10, 0x80])] (cpu 0 0 0 0xFD 0x1080 0)) 3 (fun t =>
      decide (t.regs.pc = 0x1002)) = true := by decide

theorem test_bvcRel_br7 :
    gives (placed [(0x1000, [0x50, 0x10])] (cpu 0 0 0 0xFD 0x1000 0x40)) 2 (fun t =>
      decide (t.regs.pc = 0x1002)) = true := by decide

theorem test_jmpAbs_jp1 :
    gives (placed [(0xC000, [0x4C, 0x00, 0x04])] (cpu 0 0 0 0xFD 0xC000 0)) 3 (fun t =>
      decide (t.regs.pc = 0x0400)) = true := by decide

theorem test_jmpInd_jp2 :
    gives (placed [(0x300, [0x00]), (0x301, [0xC0]), (0xC000, [0x6C, 0x00, 0x03])]
      (cpu 0 0 0 0xFD 0xC000 0)) 5 (fun t =>
      decide (t.regs.pc = 0xC000) &&
      decide (busTrace t = [0xC000, 0xC001, 0xC002, 0x0300, 0x0301])) = true := by decide

theorem test_jsrAbs_jp4 :
    gives (placed [(0x810, [0x20, 0x34, 0x12])] (cpu 0 0 0 0xFD 0x810 0)) 6 (fun t =>
      decide (t.regs.pc = 0x1234) && decide (t.regs.s = 0xFB) &&
      decide (Memory.read t.ram 0x01FC = 0x12) &&
      decide (busTrace t = [0x0810, 0x0811, 0x01FD, 0x01FD, 0x01FC, 0x0812])) = true := by decide

theorem test_rts_jp5 :
    gives (placed [(0x1FC, [0x12]), (0x1FD, [0x08]), (0xC000, [0x60])] (cpu 0 0 0 0xFB 0xC000 0)) 6 (fun t =>
      decide (t.regs.pc = 0x0813) && decide (t.regs.s = 0xFD) &&
      decide (busTrace t = [0xC000, 0xC001, 0x01FB, 0x01FC, 0x01FD, 0x0812])) = true := by decide

theorem test_rti_jp6 :
    gives (placed [(0x1FA, [0x20]), (0x1FB, [0x00]), (0x1FC, [0xC0]), (0xC000, [0x40])]
      (cpu 0 0 0 0xF9 0xC000 0x04)) 6 (fun t =>
      decide (t.regs.pc = 0xC000) && decide (t.regs.s = 0xFC) &&
      decide (t.regs.p = ⟨false,false,false,false,false,false⟩) &&
      decide (busTrace t = [0xC000, 0xC001, 0x01F9, 0x01FA, 0x01FB, 0x01FC])) = true := by decide

theorem test_clc_fl1 :
    gives (placed [(0xC000, [0x18])] (cpu 0 0 0 0xFD 0xC000 0x05)) 2 (fun t =>
      decide (t.regs.pc = 0xC001) && !t.regs.p.n && !t.regs.p.v && !t.regs.p.d && t.regs.p.i &&
      !t.regs.p.z && !t.regs.p.c) = true := by decide

theorem test_sec_fl2 :
    gives (placed [(0xC000, [0x38])] (cpu 0 0 0 0xFD 0xC000 0x04)) 2 (fun t =>
      decide (t.regs.pc = 0xC001) && t.regs.p.i && t.regs.p.c) = true := by decide

theorem test_cli_fl3 :
    gives (placed [(0xC000, [0x58])] (cpu 0 0 0 0xFD 0xC000 0x04)) 2 (fun t =>
      decide (t.regs.pc = 0xC001) && !t.regs.p.i) = true := by decide

theorem test_sei_fl4 :
    gives (placed [(0xC000, [0x78])] (cpu 0 0 0 0xFD 0xC000 0)) 2 (fun t =>
      decide (t.regs.pc = 0xC001) && t.regs.p.i) = true := by decide

theorem test_cld_fl5 :
    gives (placed [(0xC000, [0xD8])] (cpu 0 0 0 0xFD 0xC000 0x0C)) 2 (fun t =>
      decide (t.regs.pc = 0xC001) && !t.regs.p.d && t.regs.p.i) = true := by decide

theorem test_sed_fl6 :
    gives (placed [(0xC000, [0xF8])] (cpu 0 0 0 0xFD 0xC000 0x04)) 2 (fun t =>
      decide (t.regs.pc = 0xC001) && t.regs.p.d && t.regs.p.i) = true := by decide

theorem test_clv_fl7 :
    gives (placed [(0xC000, [0xB8])] (cpu 0 0 0 0xFD 0xC000 0x44)) 2 (fun t =>
      decide (t.regs.pc = 0xC001) && !t.regs.p.v && t.regs.p.i) = true := by decide

theorem test_nop_fl8 :
    gives (placed [(0xC000, [0xEA])] (cpu 0 0 0 0xFD 0xC000 0x04)) 2 (fun t =>
      decide (t.regs.pc = 0xC001)) = true := by decide

theorem test_laxZp_ud1 :
    gives (placed [(0x10, [0x80]), (0xC000, [0xA7, 0x10])] (cpu 0 0 0 0xFD 0xC000 0)) 3 (fun t =>
      decide (t.regs.a = 0x80) && decide (t.regs.x = 0x80) && t.regs.p.n) = true := by decide

theorem test_saxZp_ud3 :
    gives (placed [(0xC000, [0x87, 0x10])] (cpu 0xF0 0x3C 0 0xFD 0xC000 0x80)) 3 (fun t =>
      t.regs.p.n && decide (Memory.read t.ram 0x10 = 0x30)) = true := by decide

theorem test_dcpZp_ud4 :
    gives (placed [(0x10, [0x06]), (0xC000, [0xC7, 0x10])] (cpu 0x05 0 0 0xFD 0xC000 0)) 5 (fun t =>
      !t.regs.p.n && t.regs.p.z && t.regs.p.c && decide (Memory.read t.ram 0x0010 = 0x05)) = true := by decide

theorem test_iscZp_ud6 :
    gives (placed [(0x10, [0x04]), (0xC000, [0xE7, 0x10])] (cpu 0x10 0 0 0xFD 0xC000 0x01)) 5 (fun t =>
      decide (t.regs.a = 0x0B) && !t.regs.p.n && !t.regs.p.v && !t.regs.p.z && t.regs.p.c &&
      decide (Memory.read t.ram 0x10 = 0x05)) = true := by decide

theorem test_rlaZp_ud8 :
    gives (placed [(0x10, [0x80]), (0xC000, [0x27, 0x10])] (cpu 0xFF 0 0 0xFD 0xC000 0x01)) 5 (fun t =>
      decide (t.regs.a = 0x01) && !t.regs.p.n && !t.regs.p.z && t.regs.p.c &&
      decide (Memory.read t.ram 0x10 = 0x01)) = true := by decide

theorem test_rraZp_ud9 :
    gives (placed [(0x10, [0x03]), (0xC000, [0x67, 0x10])] (cpu 0x10 0 0 0xFD 0xC000 0)) 5 (fun t =>
      decide (t.regs.a = 0x12) && !t.regs.p.v && !t.regs.p.c &&
      decide (Memory.read t.ram 0x10 = 0x01)) = true := by decide

theorem test_sloZp_ud11 :
    gives (placed [(0x10, [0x81]), (0xC000, [0x07, 0x10])] (cpu 0x01 0 0 0xFD 0xC000 0)) 5 (fun t =>
      decide (t.regs.a = 0x03) && !t.regs.p.n && !t.regs.p.z && t.regs.p.c &&
      decide (Memory.read t.ram 0x10 = 0x02)) = true := by decide

theorem test_sreZp_ud12 :
    gives (placed [(0x10, [0x03]), (0xC000, [0x47, 0x10])] (cpu 0xFF 0 0 0xFD 0xC000 0)) 5 (fun t =>
      decide (t.regs.a = 0xFE) && t.regs.p.n && t.regs.p.c &&
      decide (Memory.read t.ram 0x10 = 0x01)) = true := by decide

theorem test_ancImm0B_ud14 :
    gives (placed [(0xC000, [0x0B, 0x80])] (cpu 0xFF 0 0 0xFD 0xC000 0)) 2 (fun t =>
      decide (t.regs.a = 0x80) && t.regs.p.n && t.regs.p.c) = true := by decide

theorem test_alrImm_ud16 :
    gives (placed [(0xC000, [0x4B, 0xFF])] (cpu 0x03 0 0 0xFD 0xC000 0)) 2 (fun t =>
      decide (t.regs.a = 0x01) && !t.regs.p.n && !t.regs.p.z && t.regs.p.c) = true := by decide

theorem test_sbxImm_ud17 :
    gives (placed [(0xC000, [0xCB, 0x05])] (cpu 0xFF 0x0F 0 0xFD 0xC000 0)) 2 (fun t =>
      decide (t.regs.x = 0x0A) && !t.regs.p.n && !t.regs.p.z && t.regs.p.c) = true := by decide

theorem test_arrImm_ua1 :
    gives (placed [(0xC000, [0x6B, 0xFF])] (cpu 0xFF 0 0 0xFD 0xC000 0x01)) 2 (fun t =>
      decide (t.regs.a = 0xFF) && t.regs.p.n && !t.regs.p.v && !t.regs.p.z && t.regs.p.c) = true := by decide

/-- BRK goes through $FFFE, here of an all-zero KERNAL image, with the status pushed as $30 + flags (vector JP7, whose
vector word is $FF48). -/
theorem test_brk :
    gives (placed [(0xC000, [0x00, 0xEA])] (cpu 0 0 0 0xFD 0xC000 0)) 7 (fun t =>
      decide (t.regs.pc = 0x0000) && decide (t.regs.s = 0xFA) && t.regs.p.i &&
      decide (Memory.read t.ram 0x01FD = 0xC0) && decide (Memory.read t.ram 0x01FC = 0x02) &&
      decide (Memory.read t.ram 0x01FB = 0x30)) = true := by decide

theorem test_bvs :
    gives (placed [(0x1000, [0x70, 0x10])] (cpu 0 0 0 0xFD 0x1000 0x40)) 3 (fun t =>
      decide (t.regs.pc = 0x1012)) = true := by decide

theorem test_tay :
    gives (placed [(0xC000, [0xA8])] (cpu 0x80 0 0 0xFD 0xC000 0)) 2 (fun t =>
      decide (t.regs.y = 0x80) && t.regs.p.n && !t.regs.p.z) = true := by decide

theorem test_txa :
    gives (placed [(0xC000, [0x8A])] (cpu 0x11 0 0 0xFD 0xC000 0)) 2 (fun t =>
      decide (t.regs.a = 0) && t.regs.p.z && !t.regs.p.n) = true := by decide

/-- A refused opcode stops, by its number (R287, R520). -/
theorem test_jam_refused :
    refuses (placed [(0xC000, [0x02])] (cpu 0 0 0 0xFD 0xC000 0)) (.refusedOpcode 0x02) = true := by decide

/-- The word that `withFetchWord` places is the next thing to run. -/
theorem test_withFetchWord :
    gives (State.reset.withFetchWord 16 0x80A9) 2 (fun t => decide (t.regs.a = 0x80) && t.regs.p.n) = true := by decide

/-! ### Master cycles -/

/-- `n` master cycles, where none of them stops. -/
def cycles : Nat → State → Option State
  | 0, s => some s
  | n + 1, s =>
    match stepCycle s with
    | .next t => cycles n t
    | _ => none

/-- INC $10 stopped after its third cycle, which read the operand $7F (R332): its latches are the bytes moved so far,
and a step from there ends with the whole instruction (R788). -/
theorem test_stepCycle_latches :
    (match cycles 3 (placed [(0xC000, [0xE6, 0x10]), (0x10, [0x7F])] (cpu 0 0 0 0xFD 0xC000 0)) with
    | some t => decide (t.latches.micro.moved = [0xE6, 0x10, 0x7F])
    | none => false) = true := by decide

theorem test_step_resumes :
    (match cycles 3 (placed [(0xC000, [0xE6, 0x10]), (0x10, [0x7F])] (cpu 0 0 0 0xFD 0xC000 0)) with
    | some t => gives t 5 (fun u =>
        decide (u.cycle = 5) && decide (Memory.read u.ram 0x10 = 0x80) && u.regs.p.n && atBoundary u)
    | none => false) = true := by decide

/-- CPU-RESET falls in the third cycle of JMP $1234: the cycle completes (R572), and the target is in PC. -/
theorem test_reset_in_jmp :
    let s := placed [(0xC000, [0x4C, 0x34, 0x12])] (cpu 0 0 0 0xFD 0xC000 0)
    gives { s with inputs := { s.inputs with schedule := [(2, { s.inputs.pins with reset := false })] } } 3 (fun t =>
      decide (t.regs.pc = 0x1234) && t.latches.resetPending && atBoundary t) = true := by decide

/-- `P_RESET(0)` is low (R821): cycle 0 sees no fall of CPU-RESET. -/
theorem test_powerOn_reset_low :
    let s := State.powerOn Params.default { Inputs.idle with schedule := [(0, { PinInputs.idle with reset := false })] }
    s.latches.resetPrev = false ∧ resetEdge (inputPhase s) = false := by decide

/-- A paddle byte scheduled for this master cycle is the one a read of POTX gives in it (R742, U15). -/
theorem test_potx_of_the_cycle :
    ioValue (cpuView { State.reset with inputs := { Inputs.idle with
      schedule := [(0, { PinInputs.idle with potX := 0x40 }), (1, PinInputs.idle)] } }) (.sid 0x19) = 0x40 := by decide

/-- The host's inputs are idle at power-on, whatever they are set to before (R803). -/
theorem test_powerOn_inputs_idle :
    let slow := { SlowInputs.idle with restore := false, joy1 := 5 }
    let s := State.powerOn Params.default { Inputs.idle with slow := slow }
    s.inputs.slow.restore = true ∧ s.inputs.slow.joy1 = 0 := by decide

/-- TODIN set to 1 while the divider is 5: the next pulse makes it 6, which is not 5 (R620) and not in 0..5 (R66), so
the clock does not advance and what the divider holds is free. -/
theorem test_todTick_past_divisor :
    let c : Cia := { Cia.reset with cra := 0x80, todDiv := 5 }
    (c.todTick true).todDiv = Config.todDivPast ∧ (c.todTick true).tod = c.tod ∧
    ({ c with todDiv := 4 }.todTick true).todDiv = 0 ∧ ({ c with cra := 0 }.todTick true).todDiv = 0 :=
  ⟨rfl, rfl, by decide, by decide⟩

/-! ### Witnesses of the hypotheses -/

/-- A machine at $C000 with idle inputs, all flags clear. -/
def idleLow : State :=
  placed [(0xC000, [0xEA, 0xEA, 0xEA])] (cpu 0x11 0x22 0x33 0xFD 0xC000 0)

/-- The same with all flags set. -/
def idleHigh : State := { idleLow with regs := { idleLow.regs with p := ⟨true, true, true, true, true, true⟩ } }

/-- A machine in cycle 20 of a bad line, where the CPU is stalled. -/
def badLine : State :=
  { idleLow with vic := { idleLow.vic with x := 19, y := 0x30, denLatch := true, baLowCount := 3, baPrev := false } }

theorem witness_LdaLoads : NoReset idleLow ∧ NoReset idleHigh := by unfold NoReset; decide
theorem witness_LdxLdyLoad : NoReset idleLow ∧ NoReset idleHigh := by unfold NoReset; decide
theorem witness_LaxLoads : NoReset idleLow ∧ NoReset idleHigh := by unfold NoReset; decide
theorem witness_StoresWriteTheRegister : NoReset idleLow ∧ NoReset idleHigh := by unfold NoReset; decide
theorem witness_SaxStores : NoReset idleLow ∧ NoReset idleHigh := by unfold NoReset; decide
theorem witness_TransfersCopy : NoReset idleLow ∧ NoReset idleHigh := by unfold NoReset; decide
theorem witness_PhaPhpPush : NoReset idleLow ∧ NoReset idleHigh := by unfold NoReset; decide
theorem witness_PlaPlpPull : NoReset idleLow ∧ NoReset idleHigh := by unfold NoReset; decide
theorem witness_AdcAdds : NoReset idleLow ∧ NoReset idleHigh := by unfold NoReset; decide
theorem witness_SbcSubtracts : NoReset idleLow ∧ NoReset idleHigh := by unfold NoReset; decide
theorem witness_LogicCombines : NoReset idleLow ∧ NoReset idleHigh := by unfold NoReset; decide
theorem witness_ComparesAndBitSetFlags : NoReset idleLow ∧ NoReset idleHigh := by unfold NoReset; decide
theorem witness_IncDecModify : NoReset idleLow ∧ NoReset idleHigh := by unfold NoReset; decide
theorem witness_RegisterIncDec : NoReset idleLow ∧ NoReset idleHigh := by unfold NoReset; decide
theorem witness_ShiftsShift : NoReset idleLow ∧ NoReset idleHigh := by unfold NoReset; decide
theorem witness_JumpsJump : NoReset idleLow ∧ NoReset idleHigh := by unfold NoReset; decide
theorem witness_JsrCalls : NoReset idleLow ∧ NoReset idleHigh := by unfold NoReset; decide
theorem witness_RtsReturns : NoReset idleLow ∧ NoReset idleHigh := by unfold NoReset; decide
theorem witness_RtiReturns : NoReset idleLow ∧ NoReset idleHigh := by unfold NoReset; decide
theorem witness_BrkEnters : NoReset idleLow ∧ NoReset idleHigh := by unfold NoReset; decide
theorem witness_FlagInstructions : NoReset idleLow ∧ NoReset idleHigh := by unfold NoReset; decide
theorem witness_DcpIscModify : NoReset idleLow ∧ NoReset idleHigh := by unfold NoReset; decide
theorem witness_ShiftCombinations : NoReset idleLow ∧ NoReset idleHigh := by unfold NoReset; decide

/-- Both outcomes of every branch, a target on the same page and one on another. -/
theorem witness_BranchesBranch : NoReset idleLow ∧ NoReset idleHigh ∧
    idleLow.regs.p = ⟨false, false, false, false, false, false⟩ ∧
    idleHigh.regs.p = ⟨true, true, true, true, true, true⟩ ∧
    hiByte (idleLow.regs.pc + sext16 0x7F) = hiByte idleLow.regs.pc ∧
    hiByte (idleLow.regs.pc + sext16 0xFF) ≠ hiByte idleLow.regs.pc := by
  unfold NoReset
  decide

theorem witness_RefusedOpcodesStop : refusedOpcodes.contains 0x02 = true ∧ refusedOpcodes.contains 0xFC = true ∧
    refusedOpcodes.contains 0x00 = false ∧ refusedOpcodes.contains 0xFF = false := by decide

/-- $99 and $00 are the ends of the valid BCD range. -/
theorem witness_DecimalAdditionLaw : (0x99 : Byte).toNat = 16 * 9 + 9 ∧ (0x00 : Byte).toNat = 16 * 0 + 0 := by decide
theorem witness_DecimalSubtractionLaw : (0x46 : Byte).toNat = 16 * 4 + 6 ∧ (0x12 : Byte).toNat = 16 * 1 + 2 := by decide

theorem witness_DecodeOfEncode : WellFormed (.iscAbx 0xFF 0xFF) = true ∧ WellFormed .brk = true := by decide
theorem witness_EncodeOfDecode : decode [0xFF, 0xFF, 0xFF, 0x02] = .ok (.iscAbx 0xFF 0xFF, [0x02]) := rfl

/-- Nothing is pending; the opcode is at a plain address or in the I/O area; JSR, JMP abs and an admitted opcode. -/
theorem witness_StepRunsTheDecodedInstruction : NoReset idleLow ∧ notBuilt idleLow = false ∧ idleLow.status.run = true ∧
    atBoundary idleLow = true ∧ idleLow.latches.resetPending = false ∧
    idleLow.latches.takeNmi = false ∧ idleLow.latches.takeIrq = false ∧
    plainAt idleLow 0xC000 = true ∧ plainAt idleLow 0xD000 = false ∧ plainAt idleLow 1 = false ∧
    admittedOpcode 0xA9 = true ∧ operandFetches 0x20 = 1 ∧ operandFetches 0x4C = 1 := by
  unfold NoReset
  decide

/-- A machine at a boundary with these latches. -/
def pending (reset nmi irq : Bool) : State :=
  { idleLow with latches := { idleLow.latches with resetPending := reset, takeNmi := nmi, takeIrq := irq } }

theorem witness_RecognitionOrder :
    notBuilt (pending true true true) = false ∧ (pending true true true).status.run = true ∧
    atBoundary (pending true true true) = true ∧ atBoundary (pending false false false) = true ∧
    (pending true true true).latches.resetPending = true ∧ (pending false true true).latches.resetPending = false ∧
    (pending false true true).latches.takeNmi = true ∧ (pending false false true).latches.takeNmi = false ∧
    (pending false false true).latches.takeIrq = true ∧ (pending false false false).latches.takeIrq = false := by decide

theorem witness_InterruptEntry :
    NoReset (pending false true true) ∧ plainAt (pending false true true) 0xFFFA = true := by
  unfold NoReset
  decide

/-- The CPU has the bus; the CPU is stalled. -/
theorem witness_PollDecides : NoReset idleLow ∧ granted (.read 0xC000) (cpuView idleLow) = true ∧
    NoReset badLine ∧ granted (.read 0xC000) (cpuView badLine) = false := by
  unfold NoReset
  decide

theorem witness_ResetSequenceRuns : NoReset (pending true false false) ∧ notBuilt (pending true false false) = false ∧
    (pending true false false).status.run = true ∧ atBoundary (pending true false false) = true ∧
    (pending true false false).latches.resetPending = true := by
  unfold NoReset
  decide

/-- CPU-RESET is high and falls in the next cycle. -/
def resetFalls : State :=
  { idleLow with
    latches := { idleLow.latches with resetPrev := true }
    inputs := { idleLow.inputs with schedule := [(0, { idleLow.inputs.pins with reset := false })] } }

/-- The same in a cycle of a bad line, where the CPU is stalled. -/
def resetFallsStalled : State := { resetFalls with vic := badLine.vic }

theorem witness_ResetStrikes : resetEdge (inputPhase resetFalls) = true ∧
    granted (.read 0xC000) (cpuView resetFalls) = true ∧ resetEdge (inputPhase resetFallsStalled) = true ∧
    granted (.read 0xC000) (cpuView resetFallsStalled) = false := by decide

/-- A BASIC image with a byte past its end, or one byte long; a stopped machine. -/
theorem witness_RunFlagAndConfigError :
    paramsOk { Params.default with basicRom := [(0x2000, 1)] } = false ∧ State.reset.cycle = 0 ∧
    faults { State.reset with params := { Params.default with basicRom := [(0x2000, 1)] } } .configError = true ∧
    [(1 : Byte)].length ≠ RomTarget.basic.size ∧ faults (loadRom .basic [1] State.reset) .configError = true ∧
    notBuilt (setRun false idleLow) = false ∧ (setRun false idleLow).status.run = false ∧
    atBoundary (setRun false idleLow) = true := by decide

theorem witness_NmiEdgeDetector : NoReset idleLow ∧
    NoReset { idleLow with pins := { idleLow.pins with nmiCia2 := true } } := by
  unfold NoReset
  decide

theorem witness_StallChangesNothing : NoReset badLine ∧
    (masterCycle false (.read 0xC000) (fun _ r => r) badLine).done = false ∧
    (masterCycle false (.read 0xC000) (fun _ r => r) idleLow).done = true := by
  unfold NoReset
  decide

theorem witness_OneBusCycle : NoReset badLine ∧ plainAt badLine 0xC000 = true := by
  unfold NoReset
  decide

theorem witness_PalBusIsGranted : NoReset badLine ∧ badLine.params.model = .pal ∧ badLine.vic.x < 63 := by
  unfold NoReset
  decide

/-- `idleLow` with a cartridge and with the port lines of `data` driven. -/
def withCart (k : CartKind) (data : Byte) : State :=
  { idleLow with params := { idleLow.params with cart := ⟨k, [], []⟩ }, port := ⟨0x07, data⟩ }

/-- Every bank at the ends of an area that selects it. -/
theorem witness_MemoryDispatch :
    bankAt (withCart .none 7) 0x0002 = .ram ∧ bankAt (withCart .none 7) 0x9FFF = .ram ∧
    bankAt (withCart .none 7) 0xA000 = .basic ∧ bankAt (withCart .none 7) 0xBFFF = .basic ∧
    bankAt (withCart .none 7) 0xE000 = .kernal ∧ bankAt (withCart .none 7) 0xFFFF = .kernal ∧
    bankAt (withCart .none 3) 0xD000 = .char ∧ bankAt (withCart .none 3) 0xDFFF = .char ∧
    bankAt (withCart .none 7) 0xD000 = .io ∧ bankAt (withCart .none 7) 0xDFFF = .io ∧
    bankAt (withCart .k8 7) 0x8000 = .roml ∧ isUltimax (withCart .k8 7) = false ∧
    bankAt (withCart .k16 7) 0xBFFF = .romh ∧ isUltimax (withCart .k16 7) = false ∧
    bankAt (withCart .ultimax 7) 0x9FFF = .roml ∧ bankAt (withCart .ultimax 7) 0xE000 = .romh ∧
    isUltimax (withCart .ultimax 7) = true ∧ bankAt (withCart .ultimax 7) 0x1000 = .openBus ∧
    bankAt (withCart .ultimax 7) 0xCFFF = .openBus := by decide

/-- The ends of every range of the I/O area. -/
theorem witness_IoDecode : ioTarget 0xD000 = .vic 0 ∧ ioTarget 0xD3FF = .vic 0x3F ∧ ioTarget 0xD400 = .sid 0 ∧
    ioTarget 0xD7FF = .sid 0x1F ∧ ioTarget 0xD800 = .colour 0 ∧ ioTarget 0xDBFF = .colour 0x3FF ∧
    ioTarget 0xDC00 = .cia1 0 ∧ ioTarget 0xDCFF = .cia1 0xF ∧ ioTarget 0xDD00 = .cia2 0 ∧ ioTarget 0xDDFF = .cia2 0xF ∧
    ioTarget 0xDE00 = .expansion ∧ ioTarget 0xDFFF = .expansion := by decide

/-- The end of a line, the end of the frame, and a position inside a line. -/
theorem witness_RasterPosition : 62 < cyclesPerLine .pal ∧ 62 + 1 = cyclesPerLine .pal ∧ 311 < linesPerFrame .pal ∧
    311 + 1 = linesPerFrame .pal ∧ 64 + 1 = cyclesPerLine .ntsc ∧ 262 + 1 = linesPerFrame .ntsc ∧
    (Vic.reset.tick (vicView State.reset)).vsync = false ∧
    ({ Vic.reset with x := 62, y := 311 }.tick (vicView State.reset)).vsync = true := by decide

/-- The ends of the unused VIC registers. -/
theorem witness_VicRegisters : 0x2F < 0x40 ∧ ioValue idleLow (.vic 0x2F) = 0xFF ∧ ioValue idleLow (.vic 0x3F) = 0xFF ∧
    ioValue idleLow (.vic 0x2E) ≠ 0xFF := by decide

/-- A one-shot start with latch 0: ICR bit 0 is still clear one tick after the tick of the write, set after the next
(R606: N + 2). -/
theorem witness_TimerLatency :
    let c : Cia := { Cia.reset with ta := { Cia.reset.ta with latch := 0 } }
    let p : CiaPins := ⟨true, true, true, false⟩
    bit c.icrData 0 = false ∧ bit c.cra 0 = false ∧ bit (0x09 : Byte) 0 = true ∧ bit (0x09 : Byte) 3 = true ∧
    bit (0x09 : Byte) 5 = false ∧
    bit ([p].foldl Cia.tick ((c.write 14 0x09).tick p)).icrData 0 = false ∧
    bit ([p, p].foldl Cia.tick ((c.write 14 0x09).tick p)).icrData 0 = true := by decide

/-- The ends of the register ranges of the SID. -/
theorem witness_SidReads : ioValue State.reset (.sid 0x18) = 0 ∧ ioValue State.reset (.sid 0x19) = 0xFF ∧
    ioValue State.reset (.sid 0x1C) = 0 ∧ ioValue State.reset (.sid 0x1D) = 0 ∧
    ioValue State.reset (.sid 0x1F) = 0 ∧ (ioWrite State.reset (.sid 0x19) 0xFF).sid = Sid.reset ∧
    (ioWrite State.reset (.sid 0x1F) 0xFF).sid = Sid.reset ∧
    (ioWrite State.reset (.sid 0x18) 0xFF).sid ≠ Sid.reset := by decide

/-- A state that meets the invariant, and takes a step. -/
theorem witness_StepKeepsTheInvariant : Inv idleLow ∧ gives idleLow 2 (fun _ => true) = true := by
  refine ⟨?_, by decide⟩
  constructor <;> first | decide | (constructor <;> decide)

theorem witness_ParametersNeverChange :
    gives idleLow 2 (fun t => decide (t.params = idleLow.params)) = true := by decide

end Sys2Proof.Machine
end

section
/-! PROOFS. The scope of a step and of a bus cycle (00_scope.md R15, R17): the bus cycle, and the step as fetch, decode
and exec. -/

namespace Sys2Proof.Machine

/-! ### One bus cycle (R15, R204, R215, R786) -/

/-- Settles O45: `busCycle_spec` says everything a bus cycle does, whichever way the byte goes. -/
theorem oneBusCycle : Obligations.OneBusCycle := by
  intro op upd s h
  obtain ⟨v, t, hrun, spec⟩ := busCycle_spec (op := op) (upd := upd) h
  refine ⟨v, t, hrun, spec.bus, ?_, ?_⟩
  · rintro a rfl
    exact ⟨spec.after, spec.read a rfl⟩
  · rintro a w rfl
    obtain rfl : v = w := spec.write a w rfl
    exact ⟨rfl, spec.after⟩

/-! ### The step as fetch, decode and exec (R17, R225, R552) -/

/-- With nothing pending the recognition order (R552) ends at the next instruction. -/
theorem step_eq_runInstruction {s : State} (hbuilt : notBuilt s = false) (hrun : s.status.run = true)
    (hboundary : atBoundary s = true) (hreset : s.latches.resetPending = false) (hnmi : s.latches.takeNmi = false)
    (hirq : s.latches.takeIrq = false) : step s = runInstruction (enter .instruction s) := by
  simp [step, stepInstruction, runBoundary, hbuilt, hrun, hboundary, hreset, hnmi, hirq]

/-- A fetch that completes hands the decoded instruction to `exec`. -/
theorem runInstruction_of_fetch {s t : State} {i : Instr} (h : fetchInstr.live s = .ok i t) :
    runInstruction s = finishOutcome (exec i t) := by
  simp [runInstruction, h]

/-- Every operand byte of an admitted opcode is fetched, but for JSR and JMP abs (R330..R332, R460, R462). -/
theorem fetched_eq_opcodeLength {op : Byte} (hjsr : op ≠ 0x20) (hjmp : op ≠ 0x4C) (hadm : admittedOpcode op = true) :
    1 + operandFetches op = opcodeLength op := by
  have hfetch : operandFetches op = opcodeLength op - 1 := by
    rw [operandFetches, if_neg (not_or.mpr ⟨hjsr, hjmp⟩), if_pos hadm]
  have hlen := opcodeLength_range op
  omega

/-- Settles O35: with nothing pending the step runs the next instruction, and `fetchInstr_spec` says what its fetch
read; the operand bytes that were not fetched do not matter to `exec` (`exec_decodeParts`). -/
theorem stepRunsTheDecodedInstruction : Obligations.StepRunsTheDecodedInstruction := by
  intro s h hbuilt hrun hboundary hreset hnmi hirq
  obtain ⟨i, t, hfetch, op, b1, b2, rfl, after, hop, hb1, hb2⟩ := fetchInstr_spec (h.enter .instruction)
  refine ⟨op, b1, b2, t, hop, hb1, hb2, after.enter.retarget rfl rfl rfl rfl, fetched_eq_opcodeLength, ?_⟩
  rw [step_eq_runInstruction hbuilt hrun hboundary hreset hnmi hirq, runInstruction_of_fetch hfetch, exec_decodeParts]

end Sys2Proof.Machine
end

section
/-! PROOFS. The state (10_state.md): the invariant of the machine and what no step changes (R57), the processor port
(R49..R56), the status image (R45) and the SID's registers as a read sees them (R92). -/

namespace Sys2Proof.Machine

/-! ### What every step keeps (R57, R211, R640, R786) -/

/-- A master cycle keeps the invariant (`Inv.masterCycle`), and no field of it is a CPU register or latch. -/
theorem steady_inv : Steady Inv where
  cycle _ h force op upd := h.masterCycle force op upd
  cpu _ _ _ h :=
    { ram := h.ram, ramInit := h.ramInit, colour := h.colour, nibbles := h.nibbles, underPort0 := h.underPort0
      underPort1 := h.underPort1, vic := h.vic, cia1 := h.cia1, cia2 := h.cia2, irqCia1 := h.irqCia1
      nmiCia2 := h.nmiCia2, irqVic := h.irqVic, audio := h.audio, ticks := h.ticks }

/-- Settles O58: a step is master cycles with changes of the CPU's registers and latches between them (`step_keeps`),
and each of those keeps the invariant. -/
theorem stepKeepsTheInvariant : Obligations.StepKeepsTheInvariant :=
  fun _ _ hinv hstep => step_keeps steady_inv hinv hstep

/-! ### What no step changes (R57, R809, R811, R820) -/

@[simp] theorem busPhase_params (op : BusOp) (upd : Byte → Regs → Regs) (s : State) :
    (busPhase op upd s).2.params = s.params := by
  cases op with
  | read a => exact memRead_params a s
  | write a v => exact memWrite_params a v s

@[simp] theorem busPhase_status (op : BusOp) (upd : Byte → Regs → Regs) (s : State) :
    (busPhase op upd s).2.status = s.status := by
  cases op with
  | read a => exact memRead_status a s
  | write a v => exact memWrite_status a v s

/-- A master cycle is the CPU's view of the state, a bus or a stalled phase, the device phases, and perhaps the reset
of every component.  What all of these leave alone, it leaves alone. -/
theorem masterCycle_frame {α : Type} (field : State → α) (hview : ∀ s, field (cpuView s) = field s)
    (hbus : ∀ op upd s, field (busPhase op upd s).2 = field s) (hstall : ∀ s, field (stallPhase s) = field s)
    (hdevices : ∀ s, field (devicePhases s) = field s) (hreset : ∀ s, field (resetAll s) = field s)
    (force : Bool) (op : BusOp) (upd : Byte → Regs → Regs) (s : State) :
    field (masterCycle force op upd s).state = field s := by
  have hcpu : ∀ go : Bool,
      field (if go then busPhase op upd (cpuView s) else (0, stallPhase (cpuView s))).2 = field s := by
    intro go
    cases go
    · exact (hstall _).trans (hview s)
    · exact (hbus op upd _).trans (hview s)
  unfold masterCycle
  dsimp only
  split
  · rw [hreset, hdevices, hcpu]
  · rw [hdevices, hcpu]

theorem masterCycle_params (force : Bool) (op : BusOp) (upd : Byte → Regs → Regs) (s : State) :
    (masterCycle force op upd s).state.params = s.params :=
  masterCycle_frame State.params cpuView_params busPhase_params stallPhase_params devicePhases_params resetAll_params
    force op upd s

theorem masterCycle_status (force : Bool) (op : BusOp) (upd : Byte → Regs → Regs) (s : State) :
    (masterCycle force op upd s).state.status = s.status :=
  masterCycle_frame State.status cpuView_status busPhase_status stallPhase_status devicePhases_status resetAll_status
    force op upd s

theorem steady_params (p : Params) : Steady fun s => s.params = p where
  cycle s h force op upd := (masterCycle_params force op upd s).trans h
  cpu _ _ _ h := h

theorem steady_status (st : HostStatus) : Steady fun s => s.status = st where
  cycle s h force op upd := (masterCycle_status force op upd s).trans h
  cpu _ _ _ h := h

/-- Settles O60: no phase of a master cycle changes the parameters or the host status, the reset of every component
included (R820). -/
theorem parametersNeverChange : Obligations.ParametersNeverChange :=
  fun s _ hstep => ⟨step_keeps (steady_params s.params) rfl hstep, step_keeps (steady_status s.status) rfl hstep⟩

/-! ### The processor port and the MMU mode (R50, R51, R55, R56) -/

/-- Each bit of the port is the data bit where it is an output, the pin where it is an input (R51). -/
theorem bit_level (p : Port) (sense : Bool) {i : Nat} (hi : i < 8) :
    bit (p.level sense) i = if bit p.ddr i then bit p.data i else bit (portPins sense) i := by
  have hlevel : bit (p.level sense) i = (bit p.data i && bit p.ddr i || bit (portPins sense) i && !bit p.ddr i) := by
    simp [bit, Port.level, hi]
  rw [hlevel]
  cases bit p.ddr i <;> simp

/-- `pin_in` (R50): pull-ups on bits 0..3 and 5, the sense pin on bit 4, nothing on bits 6 and 7. -/
theorem bit_portPins (sense : Bool) : ∀ i < 8,
    bit (portPins sense) i = (decide (i ≠ 6) && decide (i ≠ 7) && (decide (i ≠ 4) || sense)) := by
  cases sense <;> decide

theorem toNat_mod_eight (b : Byte) : b.toNat % 8 = 4 * b2n (bit b 2) + 2 * b2n (bit b 1) + b2n (bit b 0) := by
  revert b
  decide

/-- A bank line of the port (R51, R56): an input is pulled up. -/
theorem b2n_bit_level_low (p : Port) {i : Nat} (hi : i < 3) :
    b2n (bit (p.level true) i) = if bit p.ddr i then (if bit p.data i then 1 else 0) else 1 := by
  have hpin : bit (portPins true) i = true := by
    have h6 : i ≠ 6 := by omega
    have h7 : i ≠ 7 := by omega
    simp [bit_portPins true i (by omega), h6, h7]
  rw [bit_level p true (by omega), hpin]
  cases bit p.ddr i <;> rfl

/-- Settles O48: the bank lines are the low three bits of the port's level, and the level is taken bit by bit. -/
theorem modeBits : Obligations.ModeBits := by
  intro k p sense
  refine ⟨?_, fun i hi => ?_⟩
  · have hexrom : b2n (cartExrom k) = if k = .none ∨ k = .ultimax then 1 else 0 := by cases k <;> rfl
    have hgame : b2n (cartGame k) = if k = .none ∨ k = .k8 then 1 else 0 := by cases k <;> rfl
    rw [mmuMode, toNat_mod_eight, b2n_bit_level_low p (by omega), b2n_bit_level_low p (by omega),
      b2n_bit_level_low p (by omega), hexrom, hgame]
    simp only [Nat.add_assoc]
  · rw [bit_level p sense hi, bit_portPins sense i hi]

/-! ### The status image (R45) -/

/-- A byte built from its bits has those bits. -/
theorem bit_ofBits (f : Nat → Bool) {i : Nat} (hi : i < 8) : bit (ofBits f) i = f i := by
  have hb : ∀ b : Bool, b2n b < 2 := by decide
  have hone : ∀ b : Bool, b = decide (b2n b = 1) := by decide
  have := hb (f 0); have := hb (f 1); have := hb (f 2); have := hb (f 3)
  have := hb (f 4); have := hb (f 5); have := hb (f 6); have := hb (f 7)
  rw [hone (f i), bit, ofBits, BitVec.getLsbD_ofNat, Nat.testBit_eq_decide_div_mod_eq]
  interval_cases i <;> simp <;> omega

/-- Settles O27: the bits of PImage(b) are read off one by one (`bit_ofBits`), and the flags of a pull are among them. -/
theorem statusImage : Obligations.StatusImage := by
  intro b p m
  have hbit : ∀ i < 8, bit (pImage b p) i = _ := fun i hi => bit_ofBits _ hi
  refine ⟨hbit 7 (by decide), hbit 6 (by decide), hbit 5 (by decide), hbit 4 (by decide), hbit 3 (by decide),
    hbit 2 (by decide), hbit 1 (by decide), hbit 0 (by decide), rfl, ?_⟩
  simp [Flags.ofByte, hbit]

/-! ### The SID's registers (R90..R92) -/

/-- Every register but POTX, POTY, OSC3 and ENV3 reads $00 (R92). -/
theorem Sid.read_other (s : Sid) (p : PinInputs) {r : Nat} (hr : r < 0x19 ∨ 0x1C < r) : s.read p r = 0 := by
  unfold Sid.read
  split
  case h_5 => rfl
  all_goals omega

/-- Above $18 a write is ignored (R92). -/
theorem Sid.write_readOnly (s : Sid) (b : Byte) {r : Nat} (hr : 0x19 ≤ r) : s.write r b = s := by
  obtain ⟨n, rfl⟩ := Nat.exists_eq_add_of_le' hr
  unfold Sid.write
  rw [if_neg (by omega), if_neg (by omega), if_neg (by omega)]
  rfl

/-- The paddle levels at the CPU's access are those that the schedule has reached in its master cycle. -/
theorem cpuView_pinInputs (s : State) :
    (cpuView s).inputs.pins = (dueBy s.cycle s.inputs.pins s.inputs.schedule).1 := rfl

/-- Settles O57: register by register, from the SID's read and write. -/
theorem sidReads : Obligations.SidReads := by
  intro s r b _
  have hosc3 : (s.sid.v3.wave >>> 4).setWidth 8 = s.sid.v3.wave.extractLsb' 4 8 := by
    ext i hi
    simp
  refine ⟨congrArg PinInputs.potX (cpuView_pinInputs s), congrArg PinInputs.potY (cpuView_pinInputs s), hosc3, rfl,
    fun hr => Sid.read_other _ _ hr, fun hr => ?_⟩
  rw [ioWrite, Sid.write_readOnly _ _ hr]

end Sys2Proof.Machine
end

section
/-! PROOFS. Memory (20_memory.md): the PLA table (R208), a CPU read and a CPU write (R210, R211), the I/O bank (R212,
R213). -/

namespace Sys2Proof.Machine

/-! ### The PLA table (R208) -/

/-- Settles O47: the map and the table are compared entry by entry, 32 modes by 16 regions. -/
theorem plaTable : Obligations.PlaTable := by
  unfold Obligations.PlaTable
  decide

/-! ### Off the port, the bank of the address decides (R210, R211) -/

section
variable {s : State} {a : Word}

/-- The source of a read, bank by bank (R210). -/
theorem peek_bank (h0 : a ≠ 0) (h1 : a ≠ 1) :
    (bankAt s a = .ram → peek s a = Memory.read s.ram a.toNat) ∧
    (bankAt s a = .basic → peek s a = Memory.read s.params.basicRom (a.toNat - 0xA000)) ∧
    (bankAt s a = .kernal → peek s a = Memory.read s.params.kernalRom (a.toNat - 0xE000)) ∧
    (bankAt s a = .char → peek s a = Memory.read s.params.charRom (a.toNat - 0xD000)) ∧
    (bankAt s a = .roml → peek s a = Memory.read s.params.cart.roml (a.toNat - 0x8000)) ∧
    (bankAt s a = .romh → peek s a = Memory.read s.params.cart.romh (a.toNat % 0x2000)) ∧
    (bankAt s a = .io → peek s a = ioValue s (ioTarget a.toNat)) ∧ (bankAt s a = .openBus → peek s a = s.bus) := by
  unfold peek
  rw [if_neg h0, if_neg h1]
  refine ⟨?_, ?_, ?_, ?_, ?_, ?_, ?_, ?_⟩ <;> intro hbank <;> rw [hbank]

/-- A write under a ROM lands in RAM, but for a cartridge ROM in Ultimax (R211). -/
theorem writeEffect_lands (h0 : a ≠ 0) (h1 : a ≠ 1)
    (h : bankAt s a = .ram ∨ bankAt s a = .basic ∨ bankAt s a = .kernal ∨ bankAt s a = .char ∨
      ((bankAt s a = .roml ∨ bankAt s a = .romh) ∧ isUltimax s = false)) (v : Byte) :
    writeEffect s a v = ramWrite s a v := by
  unfold writeEffect
  rw [if_neg h0, if_neg h1]
  obtain h | h | h | h | ⟨h | h, hultimax⟩ := h
  · rw [h]
  · rw [h]
  · rw [h]
  · rw [h]
  · simp [h, hultimax]
  · simp [h, hultimax]

/-- A cartridge ROM in Ultimax and the open areas discard the byte (R211). -/
theorem writeEffect_discards (h0 : a ≠ 0) (h1 : a ≠ 1)
    (h : ((bankAt s a = .roml ∨ bankAt s a = .romh) ∧ isUltimax s = true) ∨ bankAt s a = .openBus) (v : Byte) :
    writeEffect s a v = s := by
  unfold writeEffect
  rw [if_neg h0, if_neg h1]
  obtain ⟨h | h, hultimax⟩ | h := h
  · simp [h, hultimax]
  · simp [h, hultimax]
  · rw [h]

theorem writeEffect_io (h0 : a ≠ 0) (h1 : a ≠ 1) (h : bankAt s a = .io) (v : Byte) :
    writeEffect s a v = ioWrite s (ioTarget a.toNat) v := by
  rw [writeEffect, if_neg h0, if_neg h1, h]

end

/-- Settles O49: the port's two addresses by computation, every other by its bank (`peek_bank`, `writeEffect_lands`,
`writeEffect_discards`, `writeEffect_io`). -/
theorem memoryDispatch : Obligations.MemoryDispatch := by
  intro s a b
  refine ⟨rfl, ?_, ?_, rfl, ?_, ?_, fun h0 h1 => ?_⟩
  · rintro rfl; rfl
  · rintro rfl; rfl
  · rintro rfl; rfl
  · rintro rfl; rfl
  · obtain ⟨hram, hbasic, hkernal, hchar, hroml, hromh, hio, hopen⟩ := peek_bank (s := s) h0 h1
    refine ⟨hram, hbasic, hkernal, hchar, hroml, hromh, hio, hopen, fun h => ?_, fun h => ?_, fun h => ?_⟩
    · rw [memWrite, writeEffect_lands h0 h1 h, ramWrite]
    · rw [memWrite, writeEffect_discards h0 h1 h]
    · rw [memWrite, writeEffect_io h0 h1 h]

/-! ### The I/O bank: the low four bits of the page tell the devices apart (R212) -/

section
variable {n : Nat}

theorem ioTarget_vic (h : n / 0x100 % 16 < 4) : ioTarget n = .vic (n % 0x40) := by
  interval_cases hpage : n / 0x100 % 16 <;> simp only [ioTarget, hpage]

theorem ioTarget_sid (hlo : 4 ≤ n / 0x100 % 16) (hhi : n / 0x100 % 16 < 8) : ioTarget n = .sid (n % 0x20) := by
  interval_cases hpage : n / 0x100 % 16 <;> simp only [ioTarget, hpage]

theorem ioTarget_colourRam (hlo : 8 ≤ n / 0x100 % 16) (hhi : n / 0x100 % 16 < 12) :
    ioTarget n = .colour (n % 0x400) := by
  interval_cases hpage : n / 0x100 % 16 <;> simp only [ioTarget, hpage]

theorem ioTarget_cia1 (h : n / 0x100 % 16 = 12) : ioTarget n = .cia1 (n % 0x10) := by
  simp only [ioTarget, h]

theorem ioTarget_cia2 (h : n / 0x100 % 16 = 13) : ioTarget n = .cia2 (n % 0x10) := by
  simp only [ioTarget, h]

theorem ioTarget_expansion (h : 14 ≤ n / 0x100 % 16) : ioTarget n = .expansion := by
  have hlt : n / 0x100 % 16 < 16 := Nat.mod_lt _ (by decide)
  interval_cases hpage : n / 0x100 % 16 <;> simp only [ioTarget, hpage]

end

/-- Settles O50: each range of $D000..$DFFF is a range of pages, and colour RAM and the expansion areas (R213) are read
off `ioWrite` and `ioValue`. -/
theorem ioDecode : Obligations.IoDecode := by
  refine ⟨fun n hlo hhi => ⟨fun hvic => ?_, fun hsid hsid' => ?_, fun hcolour hcolour' => ?_, fun hcia1 hcia1' => ?_,
    fun hcia2 hcia2' => ?_, fun hexpansion => ?_⟩, fun s i v => ⟨rfl, rfl, rfl, rfl⟩⟩
  · exact ioTarget_vic (by omega)
  · exact ioTarget_sid (by omega) (by omega)
  · exact ioTarget_colourRam (by omega) (by omega)
  · exact ioTarget_cia1 (by omega)
  · exact ioTarget_cia2 (by omega)
  · exact ioTarget_expansion (by omega)

end Sys2Proof.Machine
end

section
/-! PROOFS. The encoding (30_encoding.md): the decoder and the encoder undo each other (R280, R281, R284, R288), and the
48 refused opcodes are the ones without bus cycles of their own (R285, R287). -/

namespace Sys2Proof.Machine

/-! ### Decoding and encoding (R280, R281, R284, R288) -/

/-- Every instruction stands in the opcode map (R284), at its opcode and with the operand bytes of its encoding.  The
opcode is written out first, since `decodeParts` computes its row and its column. -/
theorem decodeParts_encode (i : Instr) :
    decodeParts i.opcode ((encode i).getD 1 0) ((encode i).getD 2 0) = i := by
  cases i <;> dsimp only [Instr.opcode] <;> rfl

/-- The encoding begins with the opcode and holds the operands, and those fix the instruction. -/
theorem encode_injective : Function.Injective encode := by
  intro i j h
  have hop : i.opcode = j.opcode := by
    have hhead := (encode_shape i).2
    rw [h, (encode_shape j).2] at hhead
    exact (Option.some.inj hhead).symm
  rw [← decodeParts_encode i, ← decodeParts_encode j, hop, h]

theorem length_eq_opcodeLength (i : Instr) : i.length = opcodeLength i.opcode := by
  obtain ⟨-, hlength, -⟩ := decodeParts_shape i.opcode ((encode i).getD 1 0) ((encode i).getD 2 0)
  rwa [decodeParts_encode] at hlength

/-- Bytes past the end of an instruction do not matter to what it is (R280). -/
theorem decodeParts_eq_of_take_eq {op b1 b2 c1 c2 : Byte}
    (h : [op, b1, b2].take (opcodeLength op) = [op, c1, c2].take (opcodeLength op)) :
    decodeParts op b1 b2 = decodeParts op c1 c2 :=
  encode_injective (by rw [encode_decodeParts, encode_decodeParts, h])

/-- The decoder takes as many bytes as the opcode fixes, and leaves the others. -/
theorem decode_take (op b1 b2 : Byte) (rest : List Byte) :
    decode ([op, b1, b2].take (opcodeLength op) ++ rest) = .ok (decodeParts op b1 b2, rest) := by
  obtain h | h | h := opcodeLength_range op
  · have hpast : decodeParts op 0 0 = decodeParts op b1 b2 := decodeParts_eq_of_take_eq (by rw [h]; rfl)
    simpa [decode, h] using hpast
  · have hpast : decodeParts op b1 0 = decodeParts op b1 b2 := decodeParts_eq_of_take_eq (by rw [h]; rfl)
    simpa [decode, h] using hpast
  · simp [decode, h]

theorem decode_encode (i : Instr) (rest : List Byte) : decode (encode i ++ rest) = .ok (i, rest) := by
  have h := decode_take i.opcode ((encode i).getD 1 0) ((encode i).getD 2 0) rest
  rwa [← encode_decodeParts, decodeParts_encode] at h

/-- The decoder answers an instruction where the bytes begin with its encoding, and nowhere else. -/
theorem decode_eq_ok_iff {bs rest : List Byte} {i : Instr} :
    decode bs = .ok (i, rest) ↔ bs = encode i ++ rest := by
  constructor
  · intro h
    unfold decode at h
    split at h
    · cases h
    · split at h
      next hlen => cases h; rw [encode_decodeParts, hlen]; rfl
      next hlen => cases h; rw [encode_decodeParts, hlen]; rfl
      next hlen => cases h; rw [encode_decodeParts, hlen]; rfl
      next => cases h
  · rintro rfl
    exact decode_encode i rest

/-- Settles O32, for every instruction, well formed or not: `decode_encode`, and the length and the first byte of an
encoding by `encode_shape`. -/
theorem decodeOfEncode : Obligations.DecodeOfEncode := by
  intro i rest _
  obtain ⟨hlength, hhead⟩ := encode_shape i
  exact ⟨decode_encode i rest, hlength.trans (length_eq_opcodeLength i), hhead⟩

/-- Settles O33: the other direction of `decode_eq_ok_iff`. -/
theorem encodeOfDecode : Obligations.EncodeOfDecode := fun _ _ _ => decode_eq_ok_iff.mp

/-- Settles O34: each of the sixteen words is the encoding of its instruction, with nothing after it. -/
theorem decodedWords : Obligations.DecodedWords := by
  unfold Obligations.DecodedWords
  and_intros <;> exact decode_eq_ok_iff.mpr rfl

/-! ### Refused opcodes (R285, R287) -/

/-- The instructions with bus cycles of their own are those of the 208 admitted opcodes (R286, R287). -/
theorem busOf_isSome (i : Instr) : (busOf i).isSome = admittedOpcode i.opcode := by
  cases i <;> dsimp only [busOf, Instr.opcode] <;> rfl

theorem exec_of_refused {i : Instr} (h : admittedOpcode i.opcode = false) (s : State) :
    exec i s = .refused (.refusedOpcode i.opcode) := by
  have hnone : busOf i = none := by simpa [h] using busOf_isSome i
  rw [exec_busOf, hnone]

/-- An admitted instruction runs its bus cycles, and running any gives a next state (`run_next`). -/
theorem exec_of_admitted {i : Instr} (h : admittedOpcode i.opcode = true) (s : State) : ∃ t, exec i s = .next t := by
  obtain ⟨m, hm⟩ := Option.isSome_iff_exists.mp ((busOf_isSome i).trans h)
  rw [exec_busOf, hm]
  exact run_next m s

/-- A refused opcode raises at its opcode fetch: it is neither JSR nor JMP abs, which are admitted. -/
theorem operandFetches_of_refused {op : Byte} (h : admittedOpcode op = false) : operandFetches op = 0 := by
  have hnotJump : ¬(op = 0x20 ∨ op = 0x4C) := by
    rintro (rfl | rfl)
    · cases h
    · cases h
  rw [operandFetches, if_neg hnotJump, h]
  rfl

/-- Settles O26: whether an opcode is refused is whether its instruction has no bus cycles (`busOf_isSome`). -/
theorem refusedOpcodesStop : Obligations.RefusedOpcodesStop := by
  intro op b1 b2
  have hop : (decodeParts op b1 b2).opcode = op := decodeParts_opcode op b1 b2
  refine ⟨hop, fun hrefused => ?_, fun hother => ?_, rfl⟩
  · have hadm : admittedOpcode op = false := by rw [admittedOpcode, hrefused]; rfl
    refine ⟨operandFetches_of_refused hadm, fun s => ?_⟩
    rw [exec_of_refused (by rwa [hop]), hop]
  · have hadm : admittedOpcode op = true := by rw [admittedOpcode, hother]; rfl
    exact exec_of_admitted (by rwa [hop])

end Sys2Proof.Machine
end

section
/-! PROOFS. Loads, stores, transfers and the stack instructions (40_addressing_load_store.md): an opcode decodes to its
instruction, the instruction is a bus sequence, and the sequence's law says what it does. -/

namespace Sys2Proof.Machine

/-! ### The bus sequence of an addressing mode -/

/-- The read class: the mode's bus sequence, which ends by using its operand with `f` (R330). -/
def Access.readBus (m : Access) (f : Byte → Regs → Regs) : Bus Unit :=
  match m with
  | .zp z => readZp z f
  | .zpx z => readZpx z f
  | .zpy z => readZpy z f
  | .abs lo hi => readAbs lo hi f
  | .abx lo hi => readAbx lo hi f
  | .aby lo hi => readAby lo hi f
  | .izx z => readIzx z f
  | .izy z => readIzy z f

/-- The write class: the mode's bus sequence, which ends by storing the register value `v` (R331). -/
def Access.writeBus (m : Access) (v : Regs → Byte) : Bus Unit :=
  match m with
  | .zp z => writeZp z v
  | .zpx z => writeZpx z v
  | .zpy z => writeZpy z v
  | .abs lo hi => writeAbs lo hi v
  | .abx lo hi => writeAbx lo hi v
  | .aby lo hi => writeAby lo hi v
  | .izx z => writeIzx z v
  | .izy z => writeIzy z v

section
variable {s : State}

theorem Access.readBus_spec (m : Access) (f : Byte → Regs → Regs) (hs : NoReset s) :
    Does (m.readBus f) s fun _ t => m.Reads f s t := by
  cases m with
  | zp z => exact readZp_spec z hs
  | zpx z => exact readZpx_spec z hs
  | zpy z => exact readZpy_spec z hs
  | abs lo hi => exact readAbs_spec lo hi hs
  | abx lo hi => exact readAbx_spec lo hi hs
  | aby lo hi => exact readAby_spec lo hi hs
  | izx z => exact readIzx_spec z hs
  | izy z => exact readIzy_spec z hs

theorem Access.writeBus_spec (m : Access) (v : Regs → Byte) (hs : NoReset s) :
    Does (m.writeBus v) s fun _ t => m.Writes (v s.regs) s t := by
  cases m with
  | zp z => exact writeZp_spec z hs
  | zpx z => exact writeZpx_spec z hs
  | zpy z => exact writeZpy_spec z hs
  | abs lo hi => exact writeAbs_spec lo hi hs
  | abx lo hi => exact writeAbx_spec lo hi hs
  | aby lo hi => exact writeAby_spec lo hi hs
  | izx z => exact writeIzx_spec z hs
  | izy z => exact writeIzy_spec z hs

/-- PHA and PHP write one byte, so the frame of RAM is that of one store (R352, R353). -/
theorem pushRow_frame_spec (v : Regs → Byte) (hs : NoReset s) :
    Does (pushRow v) s fun _ t => ∃ d,
      After s (stored s [(stackAt s.regs.s, v s.regs)]) t { s.regs with s := s.regs.s - 1 }
        [rd s.regs.pc d, wr (stackAt s.regs.s) (v s.regs)] ∧ RamFrame s t (stackAt s.regs.s) (v s.regs) :=
  (pushRow_spec v hs).mono fun _ _ ⟨d, hafter⟩ => ⟨d, hafter, ramFrame_write hafter.ram⟩

end

/-! ### From the bus sequence of an instruction to its form -/

section
variable {op b1 b2 : Byte} {i : Instr} {s : State}

/-- An instruction does what its bus sequence does. -/
theorem Form.ofBus {m : Bus Unit} {P : State → Prop} (hdecode : decodeParts op b1 b2 = i) (hbus : busOf i = some m)
    (hdoes : Does m s fun _ t => P t) : Form op b1 b2 i s P := by
  refine ⟨hdecode, ?_⟩
  rw [exec_busOf, hbus]
  exact hdoes.gives

theorem Form.ofImmediate (f : Regs → Regs) (hdecode : decodeParts op b1 b2 = i) (hbus : busOf i = some (immediate f)) :
    Form op b1 b2 i s fun t => t = { s with regs := f s.regs } :=
  .ofBus hdecode hbus ⟨(), _, rfl, rfl⟩

theorem Form.ofRead (f : Byte → Regs → Regs) (m : Access) (hdecode : decodeParts op b1 b2 = i)
    (hbus : busOf i = some (m.readBus f)) (hs : NoReset s) : Form op b1 b2 i s (m.Reads f s) :=
  .ofBus hdecode hbus (m.readBus_spec f hs)

theorem Form.ofWrite (v : Regs → Byte) (m : Access) (hdecode : decodeParts op b1 b2 = i)
    (hbus : busOf i = some (m.writeBus v)) (hs : NoReset s) : Form op b1 b2 i s (m.Writes (v s.regs) s) :=
  .ofBus hdecode hbus (m.writeBus_spec v hs)

theorem Form.ofImplied (f : Regs → Regs) (hdecode : decodeParts op b1 b2 = i) (hbus : busOf i = some (implied f))
    (hs : NoReset s) : Form op b1 b2 i s fun t => ∃ d, After s s t (f s.regs) [rd s.regs.pc d] :=
  .ofBus hdecode hbus (implied_spec f hs)

end

/-! ### Loads (R340..R342) -/

/-- Settles O1: the eight forms of LDA are the read class with `setA`, whose flags are those of `setNZ` (R18). -/
theorem ldaLoads : Obligations.LdaLoads := by
  intro z h s hs
  exact ⟨.ofImmediate (setA z) rfl rfl, .ofRead setA (.zp z) rfl rfl hs, .ofRead setA (.zpx z) rfl rfl hs,
    .ofRead setA (.abs z h) rfl rfl hs, .ofRead setA (.abx z h) rfl rfl hs, .ofRead setA (.aby z h) rfl rfl hs,
    .ofRead setA (.izx z) rfl rfl hs, .ofRead setA (.izy z) rfl rfl hs⟩

/-- Settles O2: the ten forms of LDX and LDY are the read class with `setX` and `setY`. -/
theorem ldxLdyLoad : Obligations.LdxLdyLoad := by
  intro z h s hs
  exact ⟨.ofImmediate (setX z) rfl rfl, .ofRead setX (.zp z) rfl rfl hs, .ofRead setX (.zpy z) rfl rfl hs,
    .ofRead setX (.abs z h) rfl rfl hs, .ofRead setX (.aby z h) rfl rfl hs, .ofImmediate (setY z) rfl rfl,
    .ofRead setY (.zp z) rfl rfl hs, .ofRead setY (.zpx z) rfl rfl hs, .ofRead setY (.abs z h) rfl rfl hs,
    .ofRead setY (.abx z h) rfl rfl hs⟩

/-! ### Stores (R343..R345) -/

/-- Settles O4: the thirteen forms are the write class with the register A, X or Y. -/
theorem storesWriteTheRegister : Obligations.StoresWriteTheRegister := by
  intro z h s hs
  exact ⟨.ofWrite Regs.a (.zp z) rfl rfl hs, .ofWrite Regs.a (.zpx z) rfl rfl hs,
    .ofWrite Regs.a (.abs z h) rfl rfl hs, .ofWrite Regs.a (.abx z h) rfl rfl hs,
    .ofWrite Regs.a (.aby z h) rfl rfl hs, .ofWrite Regs.a (.izx z) rfl rfl hs, .ofWrite Regs.a (.izy z) rfl rfl hs,
    .ofWrite Regs.x (.zp z) rfl rfl hs, .ofWrite Regs.x (.zpy z) rfl rfl hs, .ofWrite Regs.x (.abs z h) rfl rfl hs,
    .ofWrite Regs.y (.zp z) rfl rfl hs, .ofWrite Regs.y (.zpx z) rfl rfl hs, .ofWrite Regs.y (.abs z h) rfl rfl hs⟩

/-! ### Transfers (R346..R351) -/

/-- Settles O6: each transfer is an implied operation, and so makes the dummy read of R336. -/
theorem transfersCopy : Obligations.TransfersCopy := by
  intro z h s hs
  exact ⟨.ofImplied tax rfl rfl hs, .ofImplied tay rfl rfl hs, .ofImplied txa rfl rfl hs, .ofImplied tya rfl rfl hs,
    .ofImplied tsx rfl rfl hs, .ofImplied txs rfl rfl hs⟩

/-! ### The stack (R352..R355) -/

/-- Settles O7: both are `pushRow`, of A and of the status image with B set. -/
theorem phaPhpPush : Obligations.PhaPhpPush := by
  intro z h s hs
  exact ⟨.ofBus rfl rfl (pushRow_frame_spec Regs.a hs),
    .ofBus rfl rfl (pushRow_frame_spec (fun r => pImage true r.p) hs)⟩

/-- Settles O8: both are `pullRow`, into A and into the flags (`Flags.ofByte`). -/
theorem plaPlpPull : Obligations.PlaPlpPull := by
  intro z h s hs
  exact ⟨.ofBus rfl rfl (pullRow_spec setA hs),
    .ofBus rfl rfl (pullRow_spec (fun m r => { r with p := Flags.ofByte m }) hs)⟩

end Sys2Proof.Machine
end

section
/-! PROOFS. Arithmetic, logic, compares, increments and shifts (41_arith_logic.md): first what binary and decimal
arithmetic compute (R400..R403), then each opcode as the bus sequence of its register effect (R410..R428). -/

namespace Sys2Proof.Machine

/-! ### Bits and masks -/

/-- A mask of one bit tests that bit. -/
theorem and_twoPow_ne_zero_iff {w i : Nat} (v : BitVec w) (hi : i < w) :
    v &&& BitVec.twoPow w i ≠ 0#w ↔ bit v i = true := by
  have htwo : BitVec.twoPow w i ≠ 0#w := by
    intro h
    have := congrArg (fun u => u.getLsbD i) h
    simp [hi] at this
  rw [BitVec.and_twoPow, bit]
  cases v.getLsbD i <;> simp [htwo]

theorem and_0x80_ne_zero_iff (v : Byte) : v &&& 0x80 ≠ 0 ↔ bit v 7 = true :=
  and_twoPow_ne_zero_iff (i := 7) v (by decide)

theorem and_0x10_ne_zero_iff (w : Word) : w &&& 0x10 ≠ 0 ↔ bit w 4 = true :=
  and_twoPow_ne_zero_iff (i := 4) w (by decide)

theorem and_0x100_ne_zero_iff (w : Word) : w &&& 0x100 ≠ 0 ↔ bit w 8 = true :=
  and_twoPow_ne_zero_iff (i := 8) w (by decide)

theorem bit_eq_decide {w : Nat} (v : BitVec w) (i : Nat) : bit v i = decide (v.toNat / 2 ^ i % 2 = 1) :=
  Nat.testBit_eq_decide_div_mod_eq

theorem bit_seven (v : Byte) : bit v 7 = decide (128 ≤ v.toNat) := BitVec.msb_eq_decide v

theorem bit_xor {w : Nat} (u v : BitVec w) (i : Nat) : bit (u ^^^ v) i = (bit u i ^^ bit v i) :=
  BitVec.getLsbD_xor

theorem bit_and {w : Nat} (u v : BitVec w) (i : Nat) : bit (u &&& v) i = (bit u i && bit v i) :=
  BitVec.getLsbD_and

theorem toNat_loByte (w : Word) : (loByte w).toNat = w.toNat % 256 := by
  simp [loByte]

theorem loByte_eq_setWidth (w : Word) : loByte w = w.setWidth 8 :=
  BitVec.eq_of_toNat_eq (by simp [toNat_loByte])

/-- The signed view of a byte (R400). -/
theorem toInt_byte (v : Byte) :
    128 ≤ v.toNat ∧ v.toInt = v.toNat - 256 ∨ v.toNat < 128 ∧ v.toInt = v.toNat := by
  rw [BitVec.toInt_eq_toNat_cond]
  split <;> omega

/-- A mask of `j` ones above `i` zeros cuts `j` bits out. -/
theorem and_shifted_mask (n i j : Nat) : n &&& (2 ^ j - 1) <<< i = (n / 2 ^ i % 2 ^ j) * 2 ^ i := by
  rw [← Nat.shiftLeft_eq, ← Nat.shiftRight_eq_div_pow]
  apply Nat.eq_of_testBit_eq
  intro k
  by_cases hk : i ≤ k
  · simp [hk, Nat.testBit_shiftLeft, Bool.and_comm]
  · simp [hk, Nat.testBit_shiftLeft]

theorem toNat_complement (m : Byte) : (m ^^^ 0xFF).toNat = 255 - m.toNat := by
  rw [show m ^^^ 0xFF = ~~~m from BitVec.xor_allOnes, BitVec.toNat_not]

theorem toNat_and_0x0F (v : Byte) : (v &&& 0x0F).toNat = v.toNat % 16 :=
  Nat.and_two_pow_sub_one_eq_mod v.toNat 4

theorem toNat_and_0xF0 (v : Byte) : (v &&& 0xF0).toNat = v.toNat / 16 * 16 := by
  have hmask : (v &&& 0xF0).toNat = v.toNat / 16 % 16 * 16 := and_shifted_mask v.toNat 4 4
  have hv := v.isLt
  omega

theorem and_0x0F (n : Nat) : n &&& 0x0F = n % 16 := Nat.and_two_pow_sub_one_eq_mod n 4

theorem and_0xFF (n : Nat) : n &&& 0xFF = n % 256 := Nat.and_two_pow_sub_one_eq_mod n 8

theorem and_0x1F0 (n : Nat) : n &&& 0x1F0 = n / 16 * 16 % 0x200 :=
  (and_shifted_mask n 4 5).trans (by omega)

theorem and_0xFF0 (n : Nat) : n &&& 0xFF0 = n / 16 * 16 % 0x1000 :=
  (and_shifted_mask n 4 8).trans (by omega)

/-- Below a word whose low nibble is clear, OR puts a low nibble in place. -/
theorem toNat_lowNibble_or (v h : Word) (hh : h.toNat % 16 = 0) :
    ((v &&& 0x0F) ||| h).toNat = h.toNat + v.toNat % 16 := by
  have hv : (v &&& 0x0F).toNat = v.toNat % 16 := and_0x0F v.toNat
  obtain ⟨q, hq⟩ := Nat.dvd_of_mod_eq_zero hh
  rw [BitVec.toNat_or, hv, Nat.or_comm, hq]
  exact (Nat.two_pow_add_eq_or_of_lt (i := 4) (by omega) q).symm

/-! ### Binary addition and subtraction (R400, R402) -/

theorem b2n_le_one (c : Bool) : b2n c ≤ 1 := by cases c <;> decide

/-- The result's bit 7 differs from both operands' exactly where the signed sum leaves -128..127 (R400). -/
theorem addBinary_v_iff (a m : Byte) (c : Bool) :
    (addBinary a m c).v = true ↔
      a.toInt + m.toInt + (if c then 1 else 0) < -128 ∨ 127 < a.toInt + m.toInt + (if c then 1 else 0) := by
  have hsigns : (addBinary a m c).v = true ↔
      ¬(128 ≤ a.toNat ↔ 128 ≤ (a.toNat + m.toNat + b2n c) % 256) ∧
        ¬(128 ≤ m.toNat ↔ 128 ≤ (a.toNat + m.toNat + b2n c) % 256) := by
    simp only [addBinary, bit_xor]
    simp [bit_seven]
  have hcarry : (if c then 1 else 0 : Int) = b2n c := by cases c <;> rfl
  have ha := toInt_byte a
  have hm := toInt_byte m
  have hc := b2n_le_one c
  rw [hsigns, hcarry]
  omega

/-- Settles O28: the flags are those of the definition, and V is the sign rule of `addBinary_v_iff`. -/
theorem binaryAdditionLaw : Obligations.BinaryAdditionLaw := by
  intro a m c
  refine ⟨BitVec.toNat_ofNat .., rfl, rfl, rfl, ?_, addBinary_v_iff a m c⟩
  rw [Bool.eq_iff_iff, decide_eq_true_iff, and_0x80_ne_zero_iff, bit_and]
  rfl

theorem toNat_borrow (c : Bool) : (borrow c).toNat = 1 - b2n c := by cases c <;> rfl

/-- The difference mod 2^16 (R402). -/
theorem toNat_difference (a m : Byte) (c : Bool) :
    (zext16 a - zext16 m - borrow c).toNat = (65536 + a.toNat + b2n c - m.toNat - 1) % 65536 := by
  have ha := a.isLt
  have hm := m.isLt
  have hc := b2n_le_one c
  have hb := toNat_borrow c
  simp only [zext16, BitVec.toNat_sub, BitVec.toNat_setWidth, hb]
  omega

/-- Subtraction with borrow is addition of the complement with carry (R402). -/
theorem subBinary_eq_addBinary (a m : Byte) (c : Bool) : subBinary a m c = addBinary a (m ^^^ 0xFF) c := by
  have ha := a.isLt
  have hm := m.isLt
  have hc := b2n_le_one c
  have hres : loByte (zext16 a - zext16 m - borrow c) = BitVec.ofNat 8 (a.toNat + (m ^^^ 0xFF).toNat + b2n c) := by
    apply BitVec.eq_of_toNat_eq
    rw [toNat_loByte, toNat_difference, BitVec.toNat_ofNat, toNat_complement]
    omega
  have hcarry : zext16 a - zext16 m - borrow c < 0x100 ↔ 0xFF < a.toNat + (m ^^^ 0xFF).toNat + b2n c := by
    rw [BitVec.lt_def, toNat_difference, toNat_complement, show (0x100 : Word).toNat = 256 from rfl]
    omega
  have hsign : ∀ r : Byte,
      (bit (a ^^^ r) 7 && bit (a ^^^ m) 7) = (bit (a ^^^ r) 7 && bit ((m ^^^ 0xFF) ^^^ r) 7) := by
    intro r
    have hone : bit (0xFF : Byte) 7 = true := rfl
    simp only [bit_xor, hone]
    cases bit a 7 <;> cases bit r 7 <;> simp
  simp only [subBinary, addBinary, hres, hcarry, hsign]

theorem toInt_complement (m : Byte) : (m ^^^ 0xFF).toInt = -1 - m.toInt := by
  have hm := toInt_byte m
  have hn := toInt_byte (m ^^^ 0xFF)
  have hlt := m.isLt
  rw [toNat_complement] at hn
  omega

/-- Settles O30: as addition of the complement (`subBinary_eq_addBinary`), whose signed value is -1 - m, so that C and
V are those of `addBinary`. -/
theorem binarySubtractionLaw : Obligations.BinarySubtractionLaw := by
  intro a m c
  have hadd := subBinary_eq_addBinary a m c
  have ha := a.isLt
  have hm := m.isLt
  have hk : (if c then 0 else 1) = 1 - b2n c := by cases c <;> rfl
  have hc := b2n_le_one c
  refine ⟨?_, ?_, rfl, rfl, ?_, ?_, hadd⟩
  · apply BitVec.eq_of_toNat_eq
    simp only [hadd, hk, addBinary, BitVec.toNat_sub, BitVec.toNat_ofNat, toNat_complement]
    omega
  · simp only [hadd, hk, addBinary, toNat_complement]
    rw [decide_eq_decide]
    omega
  · rw [Bool.eq_iff_iff, decide_eq_true_iff, and_0x80_ne_zero_iff, and_0x80_ne_zero_iff, ← Bool.and_eq_true]
    rfl
  · have hborrow : ((if c then 0 else 1 : Nat) : Int) = 1 - (if c then 1 else 0) := by cases c <;> rfl
    rw [hadd, addBinary_v_iff, toInt_complement, hborrow]
    omega

/-! ### Decimal addition (R401) -/

/-- One digit of a decimal sum: above 9 the adjustment by 6 turns it into the decimal digit and a carry (R401). -/
theorem adjust_lowDigit {d : Nat} (hd : d ≤ 19) : (if d > 9 then d + 6 else d) = 16 * (d / 10) + d % 10 := by
  split <;> omega

/-- The same adjustment of the digit above, by $60. -/
theorem adjust_highDigit {d l : Nat} (hd : d ≤ 19) (hl : l ≤ 9) :
    (if (16 * d + l) / 16 * 16 % 0x200 > 0x90 then 16 * d + l + 0x60 else 16 * d + l) =
      256 * (d / 10) + 16 * (d % 10) + l := by
  have hnibbles : (16 * d + l) / 16 * 16 % 0x200 = 16 * d := by omega
  rw [hnibbles]
  split <;> omega

/-- R401 masks the sum to twelve bits without its low nibble, and compares with $F0: that asks for a bit above 7. -/
theorem carry_iff {t : Nat} (ht : t < 0x1000) : t / 16 * 16 % 0x1000 > 0xF0 ↔ 0xFF < t := by omega

/-- `lo` of R401, after its adjustment. -/
def lowSum (a m : Byte) (c : Bool) : Nat :=
  let lo0 := a.toNat % 16 + m.toNat % 16 + b2n c
  if lo0 > 9 then lo0 + 6 else lo0

/-- `t` of R401, before its high nibble is adjusted. -/
def unadjustedSum (a m : Byte) (c : Bool) : Nat :=
  lowSum a m c % 16 + a.toNat / 16 * 16 + m.toNat / 16 * 16 + (if lowSum a m c ≤ 0x0F then 0 else 0x10)

/-- `t` of R401, with its high nibble adjusted. -/
def adjustedSum (a m : Byte) (c : Bool) : Nat :=
  if unadjustedSum a m c / 16 * 16 % 0x200 > 0x90 then unadjustedSum a m c + 0x60 else unadjustedSum a m c

theorem addDecimal_eq (a m : Byte) (c : Bool) :
    addDecimal a m c =
      { res := BitVec.ofNat 8 (adjustedSum a m c)
        n := decide (unadjustedSum a m c / 128 % 2 = 1)
        v := bit (a ^^^ BitVec.ofNat 8 (unadjustedSum a m c)) 7 && !(bit (a ^^^ m) 7)
        z := decide ((a.toNat + m.toNat + b2n c) % 256 = 0)
        c := decide (adjustedSum a m c / 16 * 16 % 0x1000 > 0xF0) } := rfl

section
variable {a m : Byte} {ah al mh ml : Nat} (hah : ah ≤ 9) (hal : al ≤ 9) (hmh : mh ≤ 9) (hml : ml ≤ 9)
  (ha : a.toNat = 16 * ah + al) (hm : m.toNat = 16 * mh + ml)
include hal hml ha hm

/-- On valid BCD the low nibble becomes the last decimal digit, and what is above it the number of tens. -/
theorem unadjustedSum_bcd (c : Bool) {sum : Nat} (hsum : sum = 10 * ah + al + (10 * mh + ml) + b2n c) :
    unadjustedSum a m c = 16 * (sum / 10) + sum % 10 := by
  have hc := b2n_le_one c
  have hlow : lowSum a m c = 16 * ((al + ml + b2n c) / 10) + (al + ml + b2n c) % 10 := by
    rw [← adjust_lowDigit (by omega), lowSum, show a.toNat % 16 = al by omega, show m.toNat % 16 = ml by omega]
  rw [unadjustedSum, hlow]
  split <;> omega

include hah hmh

theorem adjustedSum_bcd (c : Bool) {sum : Nat} (hsum : sum = 10 * ah + al + (10 * mh + ml) + b2n c) :
    adjustedSum a m c = 256 * (sum / 100) + 16 * (sum % 100 / 10) + sum % 10 := by
  have hc := b2n_le_one c
  rw [adjustedSum, unadjustedSum_bcd hal hml ha hm c hsum, adjust_highDigit (by omega) (by omega)]
  omega

/-- On valid BCD the result and the carry are those of the decimal sum (R401). -/
theorem addDecimal_bcd (c : Bool) {sum : Nat} (hsum : sum = 10 * ah + al + (10 * mh + ml) + b2n c) :
    (addDecimal a m c).res.toNat = 16 * (sum % 100 / 10) + sum % 10 ∧ (addDecimal a m c).c = decide (sum > 99) := by
  have hc := b2n_le_one c
  have hdigits := adjustedSum_bcd hah hal hmh hml ha hm c hsum
  rw [addDecimal_eq, hdigits]
  constructor
  · simp only [BitVec.toNat_ofNat]
    omega
  · rw [decide_eq_decide, carry_iff (by omega)]
    omega

end

/-- The steps as R401 writes them: the carry of the low nibble stands in both branches of its sum. -/
theorem unadjustedSum_eq_ite (a m : Byte) (c : Bool) :
    unadjustedSum a m c =
      if lowSum a m c ≤ 0x0F then lowSum a m c % 16 + a.toNat / 16 * 16 + m.toNat / 16 * 16
      else lowSum a m c % 16 + a.toNat / 16 * 16 + m.toNat / 16 * 16 + 0x10 := by
  rw [unadjustedSum]
  split <;> rfl

/-- Settles O29: R401's steps are the intermediate sums of `addDecimal_eq`, with each mask a division, and on valid BCD
they are decimal digits (`addDecimal_bcd`). -/
theorem decimalAdditionLaw : Obligations.DecimalAdditionLaw := by
  intro a m c o k lo0 lo t0 t
  have hlo : lo = lowSum a m c := by
    simp only [lo, lo0, toNat_and_0x0F]
    rfl
  have ht0 : t0 = unadjustedSum a m c := by
    simp only [t0, hlo, toNat_and_0xF0, unadjustedSum_eq_ite, and_0x0F]
  have ht : t = adjustedSum a m c := by
    simp only [t, ht0, and_0x1F0, adjustedSum]
  have hsign : ∀ n : Nat, bit (a ^^^ BitVec.ofNat 8 n) 7 = (a.toNat ^^^ n).testBit 7 := by
    intro n
    rw [bit_xor, Nat.testBit_xor, bit, bit, BitVec.getLsbD_ofNat]
    rfl
  rw [ht, ht0]
  refine ⟨?_, ?_, ?_, rfl, ?_, ?_⟩
  · rw [and_0xFF]
    exact BitVec.toNat_ofNat ..
  · rw [and_0xFF0]
    rfl
  · rw [Nat.testBit_eq_decide_div_mod_eq]
    rfl
  · rw [← hsign]
    rfl
  · intro ah al mh ml hah hal hmh hml ha hm
    exact addDecimal_bcd hah hal hmh hml ha hm c rfl

/-! ### Decimal subtraction (R403) -/

/-- A borrow out of the tens is left in bit 8, and the adjustment by $60 turns it into 100 more (R403). -/
theorem adjust_difference {t : Word} {diff : Nat} (hdiff : diff < 200)
    (ht : t.toNat = (65376 + 16 * (diff / 10) + diff % 10) % 65536) :
    (loByte (if bit t 8 then t - 0x60 else t)).toNat = 16 * (diff % 100 / 10) + diff % 10 := by
  rw [toNat_loByte, bit_eq_decide]
  by_cases hb : diff < 100
  · have htens : diff % 100 = diff := Nat.mod_eq_of_lt hb
    have hword : t.toNat = 65376 + 16 * (diff / 10) + diff % 10 := by omega
    have hbit : t.toNat / 2 ^ 8 % 2 = 1 := by omega
    rw [if_pos (decide_eq_true hbit), BitVec.toNat_sub, show (0x60 : Word).toNat = 96 from rfl, htens]
    omega
  · have htens : diff / 10 = diff % 100 / 10 + 10 := by omega
    have hword : t.toNat = 16 * (diff % 100 / 10) + diff % 10 := by omega
    have hbit : ¬t.toNat / 2 ^ 8 % 2 = 1 := by omega
    rw [if_neg (mt of_decide_eq_true hbit)]
    omega

/-- `tl` of R403, before its adjustment. -/
def lowDifference (a m : Byte) (c : Bool) : Word := zext16 (a &&& 0x0F) - zext16 (m &&& 0x0F) - borrow c

/-- The difference of the high nibbles, mod 2^16 (R403). -/
def highDifference (a m : Byte) : Word := zext16 (a &&& 0xF0) - zext16 (m &&& 0xF0)

/-- `tl` of R403, joined with the high nibbles and before the adjustment by $60. -/
def unadjustedDifference (a m : Byte) (c : Bool) : Word :=
  if bit (lowDifference a m c) 4 then ((lowDifference a m c - 6) &&& 0x0F) ||| (highDifference a m - 0x10)
  else (lowDifference a m c &&& 0x0F) ||| highDifference a m

theorem subDecimalResult_eq (a m : Byte) (c : Bool) :
    subDecimalResult a m c =
      loByte (if bit (unadjustedDifference a m c) 8 then unadjustedDifference a m c - 0x60
        else unadjustedDifference a m c) := rfl

section
variable {a m : Byte} {ah al mh ml : Nat} (hah : ah ≤ 9) (hal : al ≤ 9) (hml : ml ≤ 9)
  (ha : a.toNat = 16 * ah + al) (hm : m.toNat = 16 * mh + ml)
include hal hml ha hm

theorem toNat_lowDifference (c : Bool) :
    (lowDifference a m c).toNat = (65536 + al + b2n c - ml - 1) % 65536 := by
  have hc := b2n_le_one c
  have hlow : ∀ {v : Byte} {h l : Nat}, v.toNat = 16 * h + l → l ≤ 9 → (v &&& 0x0F).toNat = l := by
    intro v h l hv hl
    rw [toNat_and_0x0F]
    omega
  rw [lowDifference, toNat_difference, hlow ha hal, hlow hm hml]

theorem toNat_highDifference :
    (highDifference a m).toNat = (65536 + 16 * ah - 16 * mh) % 65536 := by
  have hlta := a.isLt
  have hltm := m.isLt
  simp only [highDifference, zext16, BitVec.toNat_sub, BitVec.toNat_setWidth, toNat_and_0xF0]
  omega

/-- On valid BCD, 16 times the tens plus the units of the decimal difference.  `diff` is that difference plus 100, and
65376 takes those ten tens off again mod 2^16. -/
theorem toNat_unadjustedDifference (c : Bool) {diff : Nat}
    (hdiff : diff + (10 * mh + ml) + 1 = 100 + (10 * ah + al) + b2n c) :
    (unadjustedDifference a m c).toNat = (65376 + 16 * (diff / 10) + diff % 10) % 65536 := by
  have hlow := toNat_lowDifference hal hml ha hm c
  have hhigh := toNat_highDifference hal hml ha hm
  have hc := b2n_le_one c
  have hborrow : bit (lowDifference a m c) 4 = decide (al + b2n c < ml + 1) := by
    rw [bit_eq_decide, hlow, decide_eq_decide]
    omega
  rw [unadjustedDifference, hborrow]
  split
  next hb =>
    have hnext : (highDifference a m - 0x10).toNat = (65520 + 16 * ah - 16 * mh) % 65536 := by
      rw [BitVec.toNat_sub, hhigh, show (0x10 : Word).toNat = 16 from rfl]
      omega
    have hdigit : (lowDifference a m c - 6).toNat = (65530 + al + b2n c - ml - 1) % 65536 := by
      rw [BitVec.toNat_sub, hlow, show (6 : Word).toNat = 6 from rfl]
      omega
    have hb : al + b2n c < ml + 1 := of_decide_eq_true hb
    rw [toNat_lowNibble_or _ _ (by omega), hnext, hdigit]
    omega
  next hb =>
    have hb : ¬al + b2n c < ml + 1 := mt decide_eq_true hb
    rw [toNat_lowNibble_or _ _ (by omega), hhigh, hlow]
    omega

include hah

/-- On valid BCD the result is the decimal difference mod 100 (R403). -/
theorem subDecimalResult_bcd (c : Bool) {diff : Nat}
    (hdiff : diff + (10 * mh + ml) + 1 = 100 + (10 * ah + al) + b2n c) :
    (subDecimalResult a m c).toNat = 16 * (diff % 100 / 10) + diff % 10 := by
  have hc := b2n_le_one c
  rw [subDecimalResult_eq]
  exact adjust_difference (by omega) (toNat_unadjustedDifference hal hml ha hm c hdiff)

end

/-- C of a binary subtraction says that nothing was borrowed (R402). -/
theorem subBinary_c (a m : Byte) (c : Bool) : (subBinary a m c).c = decide (m.toNat + 1 ≤ a.toNat + b2n c) := by
  have hm := m.isLt
  rw [subBinary_eq_addBinary, addBinary, toNat_complement, decide_eq_decide]
  omega

/-- Settles O31: the flags are those of the binary difference by definition, the result is R403's with each mask a bit,
and on valid BCD it is decimal (`subDecimalResult_bcd`). -/
theorem decimalSubtractionLaw : Obligations.DecimalSubtractionLaw := by
  intro a m c o k b tl0 hi tl
  have htl : tl = unadjustedDifference a m c := by
    simp only [tl, and_0x10_ne_zero_iff]
    rfl
  refine ⟨rfl, rfl, rfl, rfl, ?_, ?_⟩
  · simp only [htl, and_0x100_ne_zero_iff, ← loByte_eq_setWidth]
    rfl
  · intro ah al mh ml hah hal _ hml ha hm diff
    have hk : k = 1 - b2n c := by cases c <;> rfl
    have hc := b2n_le_one c
    have hdiff : diff + (10 * mh + ml) + 1 = 100 + (10 * ah + al) + b2n c := by omega
    refine ⟨subDecimalResult_bcd hah hal hml ha hm c hdiff, (subBinary_c a m c).trans ?_⟩
    rw [decide_eq_decide]
    omega

/-! ### Arithmetic, logic and compares on the bus (R410..R418) -/

/-- Settles O9: the eight forms are the read class with `adc`. -/
theorem adcAdds : Obligations.AdcAdds := by
  intro z h s hs
  exact ⟨.ofImmediate (adc z) rfl rfl, .ofRead adc (.zp z) rfl rfl hs, .ofRead adc (.zpx z) rfl rfl hs,
    .ofRead adc (.abs z h) rfl rfl hs, .ofRead adc (.abx z h) rfl rfl hs, .ofRead adc (.aby z h) rfl rfl hs,
    .ofRead adc (.izx z) rfl rfl hs, .ofRead adc (.izy z) rfl rfl hs⟩

/-- Settles O10: the eight forms are the read class with `sbc`. -/
theorem sbcSubtracts : Obligations.SbcSubtracts := by
  intro z h s hs
  exact ⟨.ofImmediate (sbc z) rfl rfl, .ofRead sbc (.zp z) rfl rfl hs, .ofRead sbc (.zpx z) rfl rfl hs,
    .ofRead sbc (.abs z h) rfl rfl hs, .ofRead sbc (.abx z h) rfl rfl hs, .ofRead sbc (.aby z h) rfl rfl hs,
    .ofRead sbc (.izx z) rfl rfl hs, .ofRead sbc (.izy z) rfl rfl hs⟩

/-- Settles O11: AND, ORA and EOR are the read class with `setA` of the combined byte. -/
theorem logicCombines : Obligations.LogicCombines := by
  intro z h s hs
  exact ⟨.ofImmediate (andA z) rfl rfl, .ofRead andA (.zp z) rfl rfl hs, .ofRead andA (.zpx z) rfl rfl hs,
    .ofRead andA (.abs z h) rfl rfl hs, .ofRead andA (.abx z h) rfl rfl hs, .ofRead andA (.aby z h) rfl rfl hs,
    .ofRead andA (.izx z) rfl rfl hs, .ofRead andA (.izy z) rfl rfl hs,
    .ofImmediate (oraA z) rfl rfl, .ofRead oraA (.zp z) rfl rfl hs, .ofRead oraA (.zpx z) rfl rfl hs,
    .ofRead oraA (.abs z h) rfl rfl hs, .ofRead oraA (.abx z h) rfl rfl hs, .ofRead oraA (.aby z h) rfl rfl hs,
    .ofRead oraA (.izx z) rfl rfl hs, .ofRead oraA (.izy z) rfl rfl hs,
    .ofImmediate (eorA z) rfl rfl, .ofRead eorA (.zp z) rfl rfl hs, .ofRead eorA (.zpx z) rfl rfl hs,
    .ofRead eorA (.abs z h) rfl rfl hs, .ofRead eorA (.abx z h) rfl rfl hs, .ofRead eorA (.aby z h) rfl rfl hs,
    .ofRead eorA (.izx z) rfl rfl hs, .ofRead eorA (.izy z) rfl rfl hs⟩

/-- Settles O12: the compares are the read class with `compareFlags` of A, X or Y, and BIT with `bitTest`. -/
theorem comparesAndBitSetFlags : Obligations.ComparesAndBitSetFlags := by
  intro z h s hs
  exact ⟨.ofImmediate (cmpA z) rfl rfl, .ofRead cmpA (.zp z) rfl rfl hs, .ofRead cmpA (.zpx z) rfl rfl hs,
    .ofRead cmpA (.abs z h) rfl rfl hs, .ofRead cmpA (.abx z h) rfl rfl hs, .ofRead cmpA (.aby z h) rfl rfl hs,
    .ofRead cmpA (.izx z) rfl rfl hs, .ofRead cmpA (.izy z) rfl rfl hs,
    .ofImmediate (cmpX z) rfl rfl, .ofRead cmpX (.zp z) rfl rfl hs, .ofRead cmpX (.abs z h) rfl rfl hs,
    .ofImmediate (cmpY z) rfl rfl, .ofRead cmpY (.zp z) rfl rfl hs, .ofRead cmpY (.abs z h) rfl rfl hs,
    .ofRead bitTest (.zp z) rfl rfl hs, .ofRead bitTest (.abs z h) rfl rfl hs⟩

/-! ### Increments and decrements (R419..R424) -/

/-- Settles O13: INC and DEC are the read-modify-write class with `incM` and `decM`. -/
theorem incDecModify : Obligations.IncDecModify := by
  intro z h s hs
  exact ⟨.ofBus rfl rfl (rmwZp_spec (f := incM) z hs), .ofBus rfl rfl (rmwZpx_spec (f := incM) z hs),
    .ofBus rfl rfl (rmwAbs_spec (f := incM) z h hs), .ofBus rfl rfl (rmwAbx_spec (f := incM) z h hs),
    .ofBus rfl rfl (rmwZp_spec (f := decM) z hs), .ofBus rfl rfl (rmwZpx_spec (f := decM) z hs),
    .ofBus rfl rfl (rmwAbs_spec (f := decM) z h hs), .ofBus rfl rfl (rmwAbx_spec (f := decM) z h hs)⟩

/-- Settles O14: each is an implied operation, and so makes the dummy read of R336. -/
theorem registerIncDec : Obligations.RegisterIncDec := by
  intro z h s hs
  exact ⟨.ofImplied inx rfl rfl hs, .ofImplied iny rfl rfl hs, .ofImplied dex rfl rfl hs, .ofImplied dey rfl rfl hs⟩

/-! ### Shifts and rotates (R425..R428) -/

/-- Where bit `i` is clear, setting it to `c` is OR. -/
theorem putBit_of_clear {w i : Nat} {v : BitVec w} (hclear : bit v i = false) (c : Bool) :
    putBit v i c = v ||| (if c then BitVec.twoPow w i else 0#w) := by
  cases c with
  | true => rfl
  | false =>
    apply BitVec.eq_of_getLsbD_eq
    intro j hj
    by_cases hji : j = i
    · subst hji
      simpa [putBit, bit, hj] using hclear
    · simp [putBit, hj, hji]

/-- ROL shifts the old C into bit 0 (R405). -/
theorem rotateLeft_fst (v : Byte) (c : Bool) : (rotateLeft v c).1 = v <<< 1 ||| (if c then 1 else 0) :=
  putBit_of_clear (i := 0) (v := v <<< 1) (by simp [bit]) c

/-- ROR shifts the old C into bit 7 (R405). -/
theorem rotateRight_fst (v : Byte) (c : Bool) : (rotateRight v c).1 = v >>> 1 ||| (if c then 0x80 else 0) :=
  putBit_of_clear (i := 7) (v := v >>> 1) (by simp [bit]) c

/-- Settles O15: the memory forms are the read-modify-write class, the A forms implied operations (`onA`), and the
rotates put C in the place of the bit shifted in (`rotateLeft_fst`, `rotateRight_fst`). -/
theorem shiftsShift : Obligations.ShiftsShift := by
  unfold Obligations.ShiftsShift
  simp only [← rotateLeft_fst, ← rotateRight_fst]
  intro z h s hs
  exact ⟨.ofImplied (onA aslM) rfl rfl hs, .ofBus rfl rfl (rmwZp_spec (f := aslM) z hs),
    .ofBus rfl rfl (rmwZpx_spec (f := aslM) z hs), .ofBus rfl rfl (rmwAbs_spec (f := aslM) z h hs),
    .ofBus rfl rfl (rmwAbx_spec (f := aslM) z h hs),
    .ofImplied (onA lsrM) rfl rfl hs, .ofBus rfl rfl (rmwZp_spec (f := lsrM) z hs),
    .ofBus rfl rfl (rmwZpx_spec (f := lsrM) z hs), .ofBus rfl rfl (rmwAbs_spec (f := lsrM) z h hs),
    .ofBus rfl rfl (rmwAbx_spec (f := lsrM) z h hs),
    .ofImplied (onA rolM) rfl rfl hs, .ofBus rfl rfl (rmwZp_spec (f := rolM) z hs),
    .ofBus rfl rfl (rmwZpx_spec (f := rolM) z hs), .ofBus rfl rfl (rmwAbs_spec (f := rolM) z h hs),
    .ofBus rfl rfl (rmwAbx_spec (f := rolM) z h hs),
    .ofImplied (onA rorM) rfl rfl hs, .ofBus rfl rfl (rmwZp_spec (f := rorM) z hs),
    .ofBus rfl rfl (rmwZpx_spec (f := rorM) z hs), .ofBus rfl rfl (rmwAbs_spec (f := rorM) z h hs),
    .ofBus rfl rfl (rmwAbx_spec (f := rorM) z h hs)⟩

end Sys2Proof.Machine
end

section
/-! PROOFS. Branches, jumps, subroutines, BRK and RTI, and the flag instructions (42_control_flags.md): each opcode is
its bus sequence, and the sequence's law says what it does. -/

namespace Sys2Proof.Machine

/-! ### Branches (R451..R458) -/

/-- A branch whose condition does not hold has no bus cycle after its operand fetch (R450). -/
theorem branch_not_taken_spec {c : Flags → Bool} {s : State} (off : Byte) (hc : c s.regs.p = false) :
    Does (branch c off) s fun _ t => t = s := by
  refine .look ?_
  rw [hc]
  exact .done rfl

/-- Settles O16: each branch is `branch` on its flag, or on the negation of its flag, with the offset as operand. -/
theorem branchesBranch : Obligations.BranchesBranch := by
  intro z h s hs
  have taken (c : Flags → Bool) (hc : c s.regs.p = true) := branch_taken_spec z hs hc
  have fallsThrough (c : Flags → Bool) (hc : c s.regs.p = false) := branch_not_taken_spec z hc
  exact ⟨fun hc => .ofBus rfl rfl (taken (!·.c) (congrArg not hc)),
    fun hc => .ofBus rfl rfl (fallsThrough (!·.c) (congrArg not hc)),
    fun hc => .ofBus rfl rfl (taken (·.c) hc),
    fun hc => .ofBus rfl rfl (fallsThrough (·.c) hc),
    fun hz => .ofBus rfl rfl (taken (·.z) hz),
    fun hz => .ofBus rfl rfl (fallsThrough (·.z) hz),
    fun hn => .ofBus rfl rfl (taken (·.n) hn),
    fun hn => .ofBus rfl rfl (fallsThrough (·.n) hn),
    fun hz => .ofBus rfl rfl (taken (!·.z) (congrArg not hz)),
    fun hz => .ofBus rfl rfl (fallsThrough (!·.z) (congrArg not hz)),
    fun hn => .ofBus rfl rfl (taken (!·.n) (congrArg not hn)),
    fun hn => .ofBus rfl rfl (fallsThrough (!·.n) (congrArg not hn)),
    fun hv => .ofBus rfl rfl (taken (!·.v) (congrArg not hv)),
    fun hv => .ofBus rfl rfl (fallsThrough (!·.v) (congrArg not hv)),
    fun hv => .ofBus rfl rfl (taken (·.v) hv),
    fun hv => .ofBus rfl rfl (fallsThrough (·.v) hv)⟩

/-! ### Jumps and subroutines (R460..R463) -/

/-- Settles O17: the pointer's high byte is read in the page of its low byte (`busJmpInd_spec`). -/
theorem jumpsJump : Obligations.JumpsJump := by
  intro z h s hs
  exact ⟨.ofBus rfl rfl (busJmpAbs_spec z hs), .ofBus rfl rfl (busJmpInd_spec z h hs)⟩

/-- Settles O18: the high byte is read through the stored frame (`busJsrAbs_spec`). -/
theorem jsrCalls : Obligations.JsrCalls := by
  intro z h s hs
  exact .ofBus rfl rfl (busJsrAbs_spec z hs)

/-- Settles O19: the stack page is plain memory, so the pulled bytes are memory's (`busRts_spec`). -/
theorem rtsReturns : Obligations.RtsReturns := by
  intro z h s hs
  exact .ofBus rfl rfl (busRts_spec hs)

/-! ### Exceptions by instruction (R464, R465) -/

/-- Settles O20: the six flags are those of `Flags.ofByte`, pulled before PC (`busRti_spec`). -/
theorem rtiReturns : Obligations.RtiReturns := by
  intro z h s hs
  exact .ofBus rfl rfl (busRti_spec hs)

/-- Settles O21: BRK fetches its padding byte and takes an exception with B set (`busBrk_spec`). -/
theorem brkEnters : Obligations.BrkEnters := by
  intro z h s hs
  exact .ofBus rfl rfl (busBrk_spec hs)

/-! ### Flag instructions and NOP (R470..R477) -/

/-- Settles O22: each is an implied operation, and so makes the dummy read of R336. -/
theorem flagInstructions : Obligations.FlagInstructions := by
  intro z h s hs
  exact ⟨.ofImplied clc rfl rfl hs, .ofImplied cld rfl rfl hs, .ofImplied cli rfl rfl hs, .ofImplied clv rfl rfl hs,
    .ofImplied sec rfl rfl hs, .ofImplied sed rfl rfl hs, .ofImplied sei rfl rfl hs, .ofImplied nopRegs rfl rfl hs⟩

end Sys2Proof.Machine
end

section
/-! PROOFS. The undocumented instructions (43_undocumented.md): each opcode is the bus sequence of a read, a write, a
read-modify-write or no further bus cycle, with a register effect of the model. -/

namespace Sys2Proof.Machine

/-! ### The bus sequence of a read-modify-write -/

/-- The read-modify-write class: the mode's bus sequence, which writes back the byte `f` gives and leaves the registers
`f` gives (R332).  It has no mode indexed by Y in page 0. -/
def Access.rmwBus (m : Access) (f : Byte → Regs → Byte × Regs) : Option (Bus Unit) :=
  match m with
  | .zp z => some (rmwZp z f)
  | .zpx z => some (rmwZpx z f)
  | .zpy _ => none
  | .abs lo hi => some (rmwAbs lo hi f)
  | .abx lo hi => some (rmwAbx lo hi f)
  | .aby lo hi => some (rmwAby lo hi f)
  | .izx z => some (rmwIzx z f)
  | .izy z => some (rmwIzy z f)

section
variable {s : State}

theorem Access.rmwBus_spec {m : Access} {f : Byte → Regs → Byte × Regs} {bus : Bus Unit} (hbus : m.rmwBus f = some bus)
    (hs : NoReset s) : Does bus s fun _ t => m.Modifies (fun b r => (f b r).1) (fun b r => (f b r).2) s t := by
  cases m with
  | zp z => cases hbus; exact rmwZp_spec z hs
  | zpx z => cases hbus; exact rmwZpx_spec z hs
  | zpy z => cases hbus
  | abs lo hi => cases hbus; exact rmwAbs_spec lo hi hs
  | abx lo hi => cases hbus; exact rmwAbx_spec lo hi hs
  | aby lo hi => cases hbus; exact rmwAby_spec lo hi hs
  | izx z => cases hbus; exact rmwIzx_spec z hs
  | izy z => cases hbus; exact rmwIzy_spec z hs

theorem Form.ofModify {op b1 b2 : Byte} {i : Instr} (f : Byte → Regs → Byte × Regs) (m : Access) {bus : Bus Unit}
    (hdecode : decodeParts op b1 b2 = i) (hbus : busOf i = some bus) (hmode : m.rmwBus f = some bus) (hs : NoReset s) :
    Form op b1 b2 i s (m.Modifies (fun b r => (f b r).1) (fun b r => (f b r).2) s) :=
  .ofBus hdecode hbus (m.rmwBus_spec hmode hs)

end

/-! ### LAX and SAX (R500, R501) -/

/-- Settles O3: the six forms are the read class with `lax`. -/
theorem laxLoads : Obligations.LaxLoads := by
  intro z h s hs
  exact ⟨.ofRead lax (.zp z) rfl rfl hs, .ofRead lax (.zpy z) rfl rfl hs, .ofRead lax (.abs z h) rfl rfl hs,
    .ofRead lax (.aby z h) rfl rfl hs, .ofRead lax (.izx z) rfl rfl hs, .ofRead lax (.izy z) rfl rfl hs⟩

/-- The byte SAX stores (R501). -/
def andAX (r : Regs) : Byte := r.a &&& r.x

/-- Settles O5: the four forms are the write class with `andAX`. -/
theorem saxStores : Obligations.SaxStores := by
  intro z h s hs
  exact ⟨.ofWrite andAX (.zp z) rfl rfl hs, .ofWrite andAX (.zpy z) rfl rfl hs,
    .ofWrite andAX (.abs z h) rfl rfl hs, .ofWrite andAX (.izx z) rfl rfl hs⟩

/-! ### Read-modify-write combinations (R502..R507) -/

/-- Settles O23: DCP and ISC are the read-modify-write class with `dcpM` and `iscM`. -/
theorem dcpIscModify : Obligations.DcpIscModify := by
  intro z h s hs
  exact ⟨.ofModify dcpM (.zp z) rfl rfl rfl hs, .ofModify dcpM (.zpx z) rfl rfl rfl hs,
    .ofModify dcpM (.abs z h) rfl rfl rfl hs, .ofModify dcpM (.abx z h) rfl rfl rfl hs,
    .ofModify dcpM (.aby z h) rfl rfl rfl hs, .ofModify dcpM (.izx z) rfl rfl rfl hs,
    .ofModify dcpM (.izy z) rfl rfl rfl hs,
    .ofModify iscM (.zp z) rfl rfl rfl hs, .ofModify iscM (.zpx z) rfl rfl rfl hs,
    .ofModify iscM (.abs z h) rfl rfl rfl hs, .ofModify iscM (.abx z h) rfl rfl rfl hs,
    .ofModify iscM (.aby z h) rfl rfl rfl hs, .ofModify iscM (.izx z) rfl rfl rfl hs,
    .ofModify iscM (.izy z) rfl rfl rfl hs⟩

/-- Settles O24: the forms are the read-modify-write class with `rlaM`, `rraM`, `sloM` and `sreM`, and the rotates put C
in the place of the bit shifted in (`rotateLeft_fst`, `rotateRight_fst`). -/
theorem shiftCombinations : Obligations.ShiftCombinations := by
  unfold Obligations.ShiftCombinations
  simp only [← rotateLeft_fst, ← rotateRight_fst]
  intro z h s hs
  exact ⟨.ofModify rlaM (.zp z) rfl rfl rfl hs, .ofModify rlaM (.zpx z) rfl rfl rfl hs,
    .ofModify rlaM (.abs z h) rfl rfl rfl hs, .ofModify rlaM (.abx z h) rfl rfl rfl hs,
    .ofModify rlaM (.aby z h) rfl rfl rfl hs, .ofModify rlaM (.izx z) rfl rfl rfl hs,
    .ofModify rlaM (.izy z) rfl rfl rfl hs,
    .ofModify rraM (.zp z) rfl rfl rfl hs, .ofModify rraM (.zpx z) rfl rfl rfl hs,
    .ofModify rraM (.abs z h) rfl rfl rfl hs, .ofModify rraM (.abx z h) rfl rfl rfl hs,
    .ofModify rraM (.aby z h) rfl rfl rfl hs, .ofModify rraM (.izx z) rfl rfl rfl hs,
    .ofModify rraM (.izy z) rfl rfl rfl hs,
    .ofModify sloM (.zp z) rfl rfl rfl hs, .ofModify sloM (.zpx z) rfl rfl rfl hs,
    .ofModify sloM (.abs z h) rfl rfl rfl hs, .ofModify sloM (.abx z h) rfl rfl rfl hs,
    .ofModify sloM (.aby z h) rfl rfl rfl hs, .ofModify sloM (.izx z) rfl rfl rfl hs,
    .ofModify sloM (.izy z) rfl rfl rfl hs,
    .ofModify sreM (.zp z) rfl rfl rfl hs, .ofModify sreM (.zpx z) rfl rfl rfl hs,
    .ofModify sreM (.abs z h) rfl rfl rfl hs, .ofModify sreM (.abx z h) rfl rfl rfl hs,
    .ofModify sreM (.aby z h) rfl rfl rfl hs, .ofModify sreM (.izx z) rfl rfl rfl hs,
    .ofModify sreM (.izy z) rfl rfl rfl hs⟩

/-! ### Immediate combinations (R508..R511) -/

theorem toNat_and_0x01 (v : Byte) : (v &&& 0x01).toNat = v.toNat % 2 :=
  Nat.and_two_pow_sub_one_eq_mod v.toNat 1

theorem toNat_and_0x10 (v : Byte) : (v &&& 0x10).toNat = v.toNat / 16 % 2 * 16 :=
  (BitVec.toNat_and v 0x10).trans (and_shifted_mask v.toNat 4 1)

/-- Settles O25: each is one register effect of its operand; ARR is a rotation of A AND m (`rotateRight_fst`), and its
decimal fix-up tests the digits that the masks pick out. -/
theorem immediateCombinations : Obligations.ImmediateCombinations := by
  unfold Obligations.ImmediateCombinations
  simp only [← rotateRight_fst, toNat_and_0x0F, toNat_and_0x01, toNat_and_0xF0, toNat_and_0x10]
  intro z h s
  exact ⟨.ofImmediate (anc z) rfl rfl, .ofImmediate (anc z) rfl rfl, .ofImmediate (alr z) rfl rfl,
    .ofImmediate (arr z) rfl rfl, .ofImmediate (sbx z) rfl rfl⟩

end Sys2Proof.Machine
end

section
/-! PROOFS. Interrupts and reset (60_exceptions.md): the recognition order at a boundary (R552), the sequences of R553
and R571, and the CPU's part of a master cycle, where interrupts are sampled (R551), NMI edges are latched (R554) and
CPU-RESET strikes (R570, R572). -/

namespace Sys2Proof.Machine

/-! ### The recognition order (R552) -/

section
variable {s : State}

/-- A built, running machine at a boundary runs what is due there. -/
theorem step_eq_runBoundary (hbuilt : notBuilt s = false) (hrun : s.status.run = true)
    (hboundary : atBoundary s = true) : step s = runBoundary s := by
  simp [step, stepInstruction, hbuilt, hrun, hboundary]

theorem runBoundary_reset (hreset : s.latches.resetPending = true) :
    runBoundary s = finishOutcome (run resetSequence (enter .reset (resetEntry s))) := by
  rw [runBoundary, if_pos hreset]

theorem runBoundary_nmi (hreset : s.latches.resetPending = false) (hnmi : s.latches.takeNmi = true) :
    runBoundary s = finishOutcome (run nmiSequence (enter .nmi (nmiEntry s))) := by
  rw [runBoundary, if_neg (by simp [hreset]), if_pos hnmi]

theorem runBoundary_irq (hreset : s.latches.resetPending = false) (hnmi : s.latches.takeNmi = false)
    (hirq : s.latches.takeIrq = true) : runBoundary s = finishOutcome (run irqSequence (enter .irq s)) := by
  rw [runBoundary, if_neg (by simp [hreset]), if_neg (by simp [hnmi]), if_pos hirq]

end

/-- Settles O36: one case of `runBoundary` after another; `nmiSequence` and `irqSequence` are the interrupt sequence at
their vectors, and `nmiEntry` clears nmi_edge. -/
theorem recognitionOrder : Obligations.RecognitionOrder := by
  intro s hbuilt hrun hboundary
  have hstep := step_eq_runBoundary hbuilt hrun hboundary
  exact ⟨fun hreset => hstep.trans (runBoundary_reset hreset),
    fun hreset hnmi => hstep.trans (runBoundary_nmi hreset hnmi),
    fun hreset hnmi hirq => hstep.trans (runBoundary_irq hreset hnmi hirq),
    step_eq_runInstruction hbuilt hrun hboundary⟩

/-! ### The interrupt and reset sequences (R553, R571) -/

/-- Settles O37: `interruptSequence_spec` says what the sequence did once it has run to its end, and it does. -/
theorem interruptEntry : Obligations.InterruptEntry :=
  fun v _ h => (interruptSequence_spec v h).gives

/-- A sequence that gives a next state ends in the finished state (R551). -/
theorem Gives.finishOutcome {o : Host.Outcome State Fault Refusal} {P : State → Prop} (h : Gives o P) :
    Gives (Machine.finishOutcome o) fun t => ∃ u, t = finish u ∧ P u := by
  obtain ⟨u, rfl, hu⟩ := h
  exact ⟨finish u, rfl, u, rfl, hu⟩

/-- A read of a vector looks at the memory side of the state only. -/
theorem VectorAt.congr {s t : State} {v : Word} {l m : Byte} (hparams : t.params = s.params) (hport : t.port = s.port)
    (hram : t.ram = s.ram) (h : VectorAt t v l m) : VectorAt s v l m :=
  ⟨fun ha => (h.1 ((plainAt_congr hparams hport _).trans ha)).trans (peek_congr hparams hport hram _ ha),
    fun ha => (h.2 ((plainAt_congr hparams hport _).trans ha)).trans (peek_congr hparams hport hram _ ha)⟩

/-- Settles O39: the entry leaves the reset registers, from which `resetSequence_spec` says what the sequence does, and
it leaves the memory side, and so the vector, alone. -/
theorem resetSequenceRuns : Obligations.ResetSequenceRuns := by
  intro s h hbuilt hrun hboundary hreset
  have hstep : step s = finishOutcome (run resetSequence (enter .reset (resetEntry s))) :=
    (step_eq_runBoundary hbuilt hrun hboundary).trans (runBoundary_reset hreset)
  have hentry : NoReset (enter .reset (resetEntry s)) := h
  have hdoes := resetSequence_spec rfl hentry
  refine ⟨hstep, hstep ▸ (hdoes.mono ?_).gives.finishOutcome⟩
  rintro _ u ⟨d, e, f, g, k, l, m, hvector, after⟩
  exact ⟨d, e, f, g, k, l, m, hvector.congr rfl rfl rfl, after.enter.retarget rfl rfl rfl rfl⟩

/-! ### The CPU's part of a master cycle (R781..R783) -/

@[simp] theorem access_regs (op : BusOp) (s : State) : (access op s).2.regs = s.regs := by
  cases op <;> simp [access]

@[simp] theorem access_latches (op : BusOp) (s : State) : (access op s).2.latches = s.latches := by
  cases op <;> simp [access]

/-- Phases 1 and 2: the state that the devices find after the CPU's bus operation, or after its stall. -/
def cpuPhase (force : Bool) (op : BusOp) (upd : Byte → Regs → Regs) (s : State) : State :=
  if force || granted op (cpuView s) then (busPhase op upd (cpuView s)).2 else stallPhase (cpuView s)

section
variable {force : Bool} {op : BusOp} {upd : Byte → Regs → Regs} {s : State}

theorem cpuPhase_of_granted (h : granted op (cpuView s) = true) :
    cpuPhase force op upd s = (busPhase op upd (cpuView s)).2 := by simp [cpuPhase, h]

theorem cpuPhase_of_stalled (h : granted op (cpuView s) = false) :
    cpuPhase false op upd s = stallPhase (cpuView s) := by simp [cpuPhase, h]

/-- What neither a bus operation nor a stall changes is as the CPU saw it. -/
theorem cpuPhase_frame {α : Type} (field : State → α)
    (hbus : ∀ s, field (busPhase op upd s).2 = field s) (hstall : ∀ s, field (stallPhase s) = field s) :
    field (cpuPhase force op upd s) = field (cpuView s) := by
  unfold cpuPhase
  split
  · exact hbus _
  · exact hstall _

/-- A master cycle ends with the device phases, and with the reset of every component if CPU-RESET fell in it. -/
theorem masterCycle_state : (masterCycle force op upd s).state =
    if resetEdge (inputPhase s) = true then resetAll (devicePhases (cpuPhase force op upd s))
    else devicePhases (cpuPhase force op upd s) := by
  unfold masterCycle cpuPhase
  dsimp only
  cases force || granted op (cpuView s) <;> rfl

theorem NoReset.masterCycle_state (h : NoReset s) :
    (masterCycle force op upd s).state = devicePhases (cpuPhase force op upd s) := by
  rw [Machine.masterCycle_state, h.edge, if_neg (by decide)]

theorem NoReset.masterCycle_latches (h : NoReset s) :
    (masterCycle force op upd s).state.latches = (cpuPhase force op upd s).latches := by
  rw [h.masterCycle_state, devicePhases_latches]

end

/-! ### The interrupt sample and the NMI edge (R551, R554) -/

/-- The sample is formed after the register update (R551). -/
theorem busPhase_poll1 (op : BusOp) (upd : Byte → Regs → Regs) (s : State) :
    (busPhase op upd s).2.latches.poll1 = sample (busPhase op upd s).2 := rfl

/-- The sample of the bus cycle before is kept (R551). -/
theorem busPhase_poll2 (op : BusOp) (upd : Byte → Regs → Regs) (s : State) :
    (busPhase op upd s).2.latches.poll2 = s.latches.poll1 := by simp [busPhase]

/-- Settles O38: the device phases leave the latches alone, so the samples are those of the bus phase or of the stalled
phase; `finish` takes the older one. -/
theorem pollDecides : Obligations.PollDecides := by
  intro op upd s h
  refine ⟨fun hgranted => ?_, fun hstalled => ?_, rfl, rfl, rfl⟩
  · rw [h.masterCycle_latches, cpuPhase_of_granted hgranted]
    exact ⟨busPhase_poll1 op upd _, busPhase_poll2 op upd _⟩
  · rw [h.masterCycle_latches, cpuPhase_of_stalled hstalled]
    exact ⟨rfl, rfl⟩

/-- Settles O43: the detector has run when the CPU sees the state, and neither a bus phase nor a stalled phase touches
it. -/
theorem nmiEdgeDetector : Obligations.NmiEdgeDetector := by
  intro force op upd s h
  dsimp only
  rw [h.masterCycle_latches]
  exact ⟨cpuPhase_frame (·.latches.nmiEdge) (fun s => by simp [busPhase]) (fun _ => rfl),
    cpuPhase_frame (·.latches.nmiPrev) (fun s => by simp [busPhase]) (fun _ => rfl)⟩

/-! ### CPU-RESET (R570, R572, R820) -/

section
variable {op : BusOp} {upd : Byte → Regs → Regs} {s : State}

/-- A fall of CPU-RESET cuts the bus cycle short in the first master cycle, granted or stalled. -/
theorem busCycle_of_resetEdge (h : resetEdge (inputPhase s) = true) :
    busCycle op upd s = .error .reset (resetAll (devicePhases (cpuPhase false op upd s))) := by
  have hreset : (masterCycle false op upd s).reset = true := h
  rw [busCycle, stallFuel, busLoop, if_pos hreset, masterCycle_state, if_pos h]

/-- A sequence whose bus cycle is cut short ends there (R572). -/
theorem run_cycle_of_error {k : Byte → Bus Unit} {e : Abort} {t : State} (h : busCycle op upd s = .error e t) :
    run (.cycle op upd k) s = .next t := by
  simp [run, Bus.live, h]

theorem cpuPhase_params : (cpuPhase false op upd s).params = s.params :=
  cpuPhase_frame State.params (busPhase_params op upd) stallPhase_params

theorem cpuPhase_cycle : (cpuPhase false op upd s).cycle = s.cycle :=
  cpuPhase_frame State.cycle (fun s => by simp [busPhase]) stallPhase_cycle

theorem cpuPhase_regs_of_granted (h : granted op (cpuView s) = true) :
    (cpuPhase false op upd s).regs = upd (access op (cpuView s)).1 s.regs := by
  rw [cpuPhase_of_granted h]
  simp [busPhase]

theorem cpuPhase_regs_of_stalled (h : granted op (cpuView s) = false) : (cpuPhase false op upd s).regs = s.regs := by
  rw [cpuPhase_of_stalled h, stallPhase_regs, cpuView_regs]

end

/-- Settles O40: the bus cycle in progress ends in `resetAll` of its first master cycle (`busCycle_of_resetEdge`), which
keeps PC, the parameters and the cycle counter and sets everything else. -/
theorem resetStrikes : Obligations.ResetStrikes := by
  intro op upd s h
  have hbus := busCycle_of_resetEdge (op := op) (upd := upd) h
  have hparams : (devicePhases (cpuPhase false op upd s)).params = s.params := by
    rw [devicePhases_params, cpuPhase_params]
  have hpc : (devicePhases (cpuPhase false op upd s)).regs.pc = (cpuPhase false op upd s).regs.pc := by
    rw [devicePhases_regs]
  refine ⟨_, run_cycle_of_error hbus, hbus, rfl, fun hgranted => ?_, fun hstalled => ?_, rfl, rfl, rfl, ?_, ?_, rfl, rfl,
    rfl, rfl, rfl, rfl, hparams, ?_⟩
  · exact hpc.trans (congrArg Regs.pc (cpuPhase_regs_of_granted hgranted))
  · exact hpc.trans (congrArg Regs.pc (cpuPhase_regs_of_stalled hstalled))
  · exact congrArg Params.ramInit hparams
  · exact congrArg (fun p => colourInit p.ramInit) hparams
  · rw [resetAll_cycle, devicePhases_cycle, cpuPhase_cycle]

end Sys2Proof.Machine
end

section
/-! PROOFS. The CIA 6526 (61_cia.md): the interrupt control register (R641, R642), and timer A as a one-shot (R603,
R605, R606). -/

namespace Sys2Proof.Machine

/-! ### The interrupt control register (R641, R642) -/

theorem Cia.line_eq_decide (c : Cia) : c.line = decide (c.icrData &&& c.icrMask ≠ 0) := by
  simp [Cia.line, bne, Bool.beq_eq_decide_eq]

/-- A read of the ICR is the data with the interrupt producer above it: the five data bits leave bit 7 clear. -/
theorem Cia.readValue_icr (c : Cia) (pa pb : Byte) :
    c.readValue 13 pa pb = c.icrData.setWidth 8 ||| (if c.icrData &&& c.icrMask ≠ 0 then 0x80 else 0) := by
  have hclear : bit (c.icrData.setWidth 8) 7 = false := by simp [bit]
  have h : c.readValue 13 pa pb = _ := putBit_of_clear hclear c.line
  rw [h]
  simp only [Cia.line_eq_decide, decide_eq_true_eq]
  rfl

/-- Settles O56: the value read is `Cia.readValue_icr`, and the producer after a write is `Cia.line` of the new mask. -/
theorem icrReadAndWrite : Obligations.IcrReadAndWrite := by
  intro s v
  have hline (c : Cia) := Cia.line_eq_decide (c.write 13 v)
  exact ⟨by rw [ioValue, Cia.readValue_icr], by rw [ioValue, Cia.readValue_icr], rfl, rfl, rfl, rfl,
    rfl, congrArg (fun b => { s.pins with irqCia1 := b }) (hline s.cia1),
    rfl, congrArg (fun b => { s.pins with nmiCia2 := b }) (hline s.cia2), rfl, rfl⟩

/-! ### A running timer (R603, R605, R606) -/

/-- The ticks that a running timer with a pulse in every tick takes to its underflow, that tick included: one for the
load delay, one to load the counter if it has not started, then one for each value of the counter down to 0. -/
def Timer.ticksLeft (t : Timer) : Nat :=
  (if t.loadDelay then 1 else 0) + (if t.started then t.counter.toNat + 1 else t.latch.toNat + 2)

theorem Timer.ticksLeft_pos (t : Timer) : 0 < t.ticksLeft := by
  unfold Timer.ticksLeft; split <;> split <;> omega

theorem Timer.ticksLeft_eq_one_iff (t : Timer) :
    t.ticksLeft = 1 ↔ t.loadDelay = false ∧ t.started = true ∧ t.counter = 0 := by
  cases hdelay : t.loadDelay <;> cases hstarted : t.started <;>
    simp [Timer.ticksLeft, hdelay, hstarted, ← BitVec.toNat_inj]

@[simp] theorem Timer.output_ticksLeft (t : Timer) (toggle u : Bool) : (t.output toggle u).ticksLeft = t.ticksLeft := by
  unfold Timer.output; split <;> rfl

@[simp] theorem Timer.output_counter (t : Timer) (toggle u : Bool) : (t.output toggle u).counter = t.counter := by
  unfold Timer.output; split <;> rfl

/-- A timer without START holds still (R603). -/
theorem Timer.tick_stopped (t : Timer) (oneShot pulse : Bool) : t.tick false oneShot pulse = (t, false) := rfl

/-- Before its last tick a running timer does not underflow, and is one tick nearer to it. -/
theorem Timer.tick_early (t : Timer) (oneShot : Bool) (h : t.ticksLeft ≠ 1) :
    (t.tick true oneShot true).2 = false ∧ (t.tick true oneShot true).1.ticksLeft + 1 = t.ticksLeft := by
  cases hdelay : t.loadDelay
  case true => simp [Timer.tick, Timer.ticksLeft, hdelay, Nat.add_comm]
  case false =>
    cases hstarted : t.started
    case false => simp [Timer.tick, Timer.ticksLeft, hdelay, hstarted]
    case true =>
      have hcounter : t.counter ≠ 0#16 := fun h0 => h (t.ticksLeft_eq_one_iff.mpr ⟨hdelay, hstarted, h0⟩)
      have hdec : (t.counter - 1#16).toNat + 1 = t.counter.toNat := by bv_omega
      simp [Timer.tick, Timer.ticksLeft, hdelay, hstarted, hcounter, -BitVec.toNat_sub, hdec]

/-- In its last tick a running timer underflows and reloads its counter; as a one-shot it then has to start again. -/
theorem Timer.tick_due (t : Timer) (oneShot : Bool) (h : t.ticksLeft = 1) :
    t.tick true oneShot true = ({ t with counter := t.latch, started := !oneShot }, true) := by
  obtain ⟨hdelay, hstarted, hcounter⟩ := t.ticksLeft_eq_one_iff.mp h
  simp [Timer.tick, hdelay, hstarted, hcounter]

theorem Timer.control_latch (t : Timer) (old v : Byte) : (t.control old v).latch = t.latch := by
  unfold Timer.control
  dsimp only
  split_ifs <;> rfl

/-- A start of a stopped timer puts the load delay and the load before the count, whatever it was doing (R602). -/
theorem Timer.ticksLeft_control_of_start (t : Timer) {old v : Byte} (hstop : bit old 0 = false)
    (hstart : bit v 0 = true) : (t.control old v).ticksLeft = t.latch.toNat + 3 := by
  have hdelay : (t.control old v).loadDelay = true := by simp [Timer.control, hstop, hstart]
  have hstarted : (t.control old v).started = false := by simp [Timer.control, hstop, hstart]
  simp [Timer.ticksLeft, hdelay, hstarted, t.control_latch]; omega

/-! ### Timer A in a tick of the CIA (R600) -/

/-- Timer A, its control register and its interrupt flag: what its part of a tick reads and changes. -/
structure TimerA where
  timer : Timer
  ctrl : Byte
  flag : Bool

def Cia.timerA (c : Cia) : TimerA := ⟨c.ta, c.cra, bit c.icrData 0⟩

@[simp] theorem Cia.event_ta (c : Cia) (i : Nat) (b : Bool) : (c.event i b).ta = c.ta := by cases b <;> rfl

@[simp] theorem Cia.event_cra (c : Cia) (i : Nat) (b : Bool) : (c.event i b).cra = c.cra := by cases b <;> rfl

/-- The interrupt flag of timer A is set by the event of timer A itself and by no other (R643). -/
@[simp] theorem Cia.event_flagA (c : Cia) (i : Nat) (b : Bool) :
    bit (c.event i b).icrData 0 = (bit c.icrData 0 || (b && decide (i = 0))) := by
  cases b <;> simp [Cia.event, bit, putBit, eq_comm]

theorem Cia.event_timerA (c : Cia) {i : Nat} (hi : i ≠ 0) (b : Bool) : (c.event i b).timerA = c.timerA := by
  simp [Cia.timerA, hi]

@[simp] theorem Cia.tickB_timerA (c : Cia) (e n u : Bool) : (c.tickB e n u).1.timerA = c.timerA :=
  Cia.event_timerA _ (by decide) _

@[simp] theorem Cia.serialOut_timerA (c : Cia) : c.serialOut.timerA = c.timerA := by
  unfold Cia.serialOut
  dsimp only
  split_ifs <;> simp [Cia.timerA]

@[simp] theorem Cia.serialIn_timerA (c : Cia) (sp : Bool) : (c.serialIn sp).timerA = c.timerA := by
  unfold Cia.serialIn
  dsimp only
  split_ifs <;> simp [Cia.timerA]

@[simp] theorem Cia.serialTick_timerA (c : Cia) (u e sp : Bool) : (c.serialTick u e sp).timerA = c.timerA := by
  unfold Cia.serialTick
  split_ifs <;> simp

@[simp] theorem Cia.todTick_timerA (c : Cia) (pulse : Bool) : (c.todTick pulse).timerA = c.timerA := by
  unfold Cia.todTick Cia.alarmCheck
  split_ifs <;> simp [Cia.timerA]

/-- All that a tick does to timer A is its own step (R603..R606) and its output (R611): no other part of the chip
touches it. -/
theorem Cia.tick_timerA (c : Cia) (p : CiaPins) :
    let a := c.ta.tick (bit c.cra 0) (bit c.cra 3) (if bit c.cra 5 then !c.cntPrev && p.cnt else true)
    (c.tick p).timerA =
      ⟨a.1.output (bit (stopOneShot c.cra a.2) 2) a.2, stopOneShot c.cra a.2, bit c.icrData 0 || a.2⟩ := by
  intro a
  have hA : (c.tickA (!c.cntPrev && p.cnt)).1.timerA = ⟨a.1, stopOneShot c.cra a.2, bit c.icrData 0 || a.2⟩ := by
    simp [Cia.timerA, Cia.tickA, a]
  have hout (d : Cia) (u ub : Bool) : ({ d with
      ta := d.ta.output (bit d.cra 2) u, tb := d.tb.output (bit d.crb 2) ub } : Cia).timerA =
        ⟨d.timerA.timer.output (bit d.timerA.ctrl 2) u, d.timerA.ctrl, d.timerA.flag⟩ := rfl
  have hprev (d : Cia) (n f : Bool) : ({ d with cntPrev := n, flagPrev := f } : Cia).timerA = d.timerA := rfl
  simp only [Cia.tick]
  rw [hprev, Cia.event_timerA _ (by decide), Cia.todTick_timerA, Cia.serialTick_timerA, hout, Cia.tickB_timerA, hA]
  rfl

/-! ### Timer A as a one-shot (R605, R606) -/

/-- Timer A runs as a one-shot that counts phi2 and has not fired. -/
structure ShotArmed (c : Cia) : Prop where
  start : bit c.cra 0 = true
  oneShot : bit c.cra 3 = true
  phi2 : bit c.cra 5 = false
  flag : bit c.icrData 0 = false

/-- Timer A has fired: it is stopped, with its flag set and its counter reloaded. -/
structure ShotFired (c : Cia) : Prop where
  start : bit c.cra 0 = false
  flag : bit c.icrData 0 = true
  counter : c.ta.counter = c.ta.latch

theorem bit_zero_putBit_false : ∀ v : Byte, bit (putBit v 0 false) 0 = false := by decide

theorem Cia.tick_latchA (c : Cia) (p : CiaPins) : (c.tick p).ta.latch = c.ta.latch :=
  congrArg (·.ta.latch) (Cia.tick_settings c p)

section
variable {c : Cia} {p : CiaPins}

theorem ShotArmed.tick_timerA (h : ShotArmed c) :
    let a := c.ta.tick true true true
    (c.tick p).timerA = ⟨a.1.output (bit (stopOneShot c.cra a.2) 2) a.2, stopOneShot c.cra a.2, a.2⟩ := by
  simpa [h.start, h.oneShot, h.phi2, h.flag] using Cia.tick_timerA c p

/-- Before the due tick nothing is seen of the timer but its count. -/
theorem ShotArmed.tick_early (h : ShotArmed c) (hleft : c.ta.ticksLeft ≠ 1) :
    ShotArmed (c.tick p) ∧ (c.tick p).ta.ticksLeft + 1 = c.ta.ticksLeft := by
  obtain ⟨hu, hcount⟩ := c.ta.tick_early true hleft
  have htick := h.tick_timerA (p := p)
  simp only [hu, Cia.timerA, stopOneShot, TimerA.mk.injEq, Bool.false_and, Bool.false_eq_true, if_false] at htick
  obtain ⟨hta, hcra, hflag⟩ := htick
  refine ⟨⟨hcra ▸ h.start, hcra ▸ h.oneShot, hcra ▸ h.phi2, hflag⟩, ?_⟩
  rw [hta, Timer.output_ticksLeft, hcount]

theorem ShotArmed.tick_due (h : ShotArmed c) (hleft : c.ta.ticksLeft = 1) : ShotFired (c.tick p) := by
  have htick := h.tick_timerA (p := p)
  simp only [c.ta.tick_due true hleft, Cia.timerA, stopOneShot, h.oneShot, TimerA.mk.injEq, Bool.and_self, if_true]
    at htick
  obtain ⟨hta, hcra, hflag⟩ := htick
  refine ⟨by rw [hcra, bit_zero_putBit_false], hflag, ?_⟩
  rw [Cia.tick_latchA, hta, Timer.output_counter]

/-- A one-shot that has fired stays as it is. -/
theorem ShotFired.tick (h : ShotFired c) : ShotFired (c.tick p) := by
  have htick := Cia.tick_timerA c p
  simp only [h.start, h.flag, Timer.tick_stopped, Cia.timerA, stopOneShot, TimerA.mk.injEq, Bool.false_and,
    Bool.false_eq_true, if_false, Bool.or_false] at htick
  obtain ⟨hta, hcra, hflag⟩ := htick
  refine ⟨hcra ▸ h.start, hflag, ?_⟩
  rw [Cia.tick_latchA, hta, Timer.output_counter, h.counter]

theorem ShotArmed.of_start {v : Byte} (hstop : bit c.cra 0 = false) (hflag : bit c.icrData 0 = false)
    (hstart : bit v 0 = true) (honeShot : bit v 3 = true) (hphi2 : bit v 5 = false) :
    ShotArmed (c.write 14 v) ∧ (c.write 14 v).ta.ticksLeft = c.ta.latch.toNat + 3 := by
  refine ⟨⟨?_, ?_, ?_, hflag⟩, c.ta.ticksLeft_control_of_start hstop hstart⟩
  · simp only [Cia.write, bit_and, hstart]; decide
  · simp only [Cia.write, bit_and, honeShot]; decide
  · simp only [Cia.write, bit_and, hphi2, Bool.false_and]

end

theorem Cia.ticks_latchA (ps : List CiaPins) (c : Cia) : (ps.foldl Cia.tick c).ta.latch = c.ta.latch := by
  induction ps generalizing c with
  | nil => rfl
  | cons p ps ih => rw [List.foldl_cons, ih, Cia.tick_latchA]

theorem ShotFired.ticks (ps : List CiaPins) {c : Cia} (h : ShotFired c) : ShotFired (ps.foldl Cia.tick c) := by
  induction ps generalizing c with
  | nil => exact h
  | cons p ps ih => exact ih h.tick

/-- A one-shot fires in its due tick, and not before. -/
theorem ShotArmed.ticks (ps : List CiaPins) {c : Cia} (h : ShotArmed c) :
    if c.ta.ticksLeft ≤ ps.length then ShotFired (ps.foldl Cia.tick c) else ShotArmed (ps.foldl Cia.tick c) := by
  induction ps generalizing c with
  | nil =>
    have hpos : ¬ c.ta.ticksLeft ≤ 0 := Nat.not_le.mpr c.ta.ticksLeft_pos
    exact (if_neg hpos).mpr h
  | cons p ps ih =>
    by_cases hleft : c.ta.ticksLeft = 1
    · rw [if_pos (by simp [hleft])]
      exact (h.tick_due hleft).ticks ps
    · obtain ⟨harmed, hcount⟩ := h.tick_early (p := p) hleft
      simpa [← hcount] using ih harmed

/-- Settles O55: the tick of the write is the first of the N + 3 ticks that the started timer takes to its underflow. -/
theorem timerLatency : Obligations.TimerLatency := by
  intro c v p ps hflag hstop hstart honeShot hphi2 t
  obtain ⟨harmed, hleft⟩ := ShotArmed.of_start hstop hflag hstart honeShot hphi2
  have hlatch : t.ta.latch = c.ta.latch :=
    (Cia.ticks_latchA (p :: ps) (c.write 14 v)).trans (c.ta.control_latch c.cra v)
  have hshot : if c.ta.latch.toNat + 2 ≤ ps.length then ShotFired t else ShotArmed t := by
    simpa [hleft] using harmed.ticks (p :: ps)
  by_cases hdue : c.ta.latch.toNat + 2 ≤ ps.length
  · rw [if_pos hdue] at hshot
    simp [hdue, Nat.not_lt.mpr hdue, hshot.flag, hshot.start, hshot.counter, hlatch]
  · rw [if_neg hdue] at hshot
    simp [hdue, Nat.not_le.mp hdue, hshot.flag, hshot.start]

end Sys2Proof.Machine
end

section
/-! PROOFS. The VIC-II (62_vic2.md): the raster position (R661) and the raster compare (R664), BA and AEC (R680, R681),
how long the CPU can wait for the bus on PAL (R690, R782), and the register accesses (R665). -/

namespace Sys2Proof.Machine

/-- A bit that was put is there, and the other bits are as before. -/
theorem bit_putBit {w i : Nat} (hi : i < w) (v : BitVec w) (c : Bool) (j : Nat) :
    bit (putBit v i c) j = if j = i then c else bit v j := by
  have hin : v.getLsbD j = true → j < w := BitVec.lt_of_getLsbD
  by_cases hji : j = i
  · subst hji
    cases c <;> simp [bit, putBit, hi]
  · cases c with
    | true => simp [bit, putBit, hji, Ne.symm hji]
    | false => simpa [bit, putBit, hji, Ne.symm hji] using hin

/-! ### The last step of a tick (R661, R663) -/

theorem Vic.late_eq {u v : Vic} (h : u.late = v.late) :
    u.shape = v.shape ∧ u.baLowCount = v.baLowCount ∧ u.baPrev = v.baPrev := by
  simpa only [Vic.late, Prod.mk.injEq] using h

/-- The VIC before the last step of a tick, the advance. -/
def Vic.beforeAdvance (v : Vic) (w : VicView) : Vic :=
  (((v.fetchSteps w).stepBa w.params).pixels w.params).1.lightPen w.params w.lightPen

section
variable (v : Vic) (w : VicView)

theorem Vic.tick_vic : (v.tick w).vic = ((v.beforeAdvance w).advance w.params).1 := by
  simp only [Vic.tick, Vic.beforeAdvance]

theorem Vic.tick_vsync : (v.tick w).vsync = ((v.beforeAdvance w).advance w.params).2 := by
  simp only [Vic.tick, Vic.beforeAdvance]

/-- The pixels and the light pen change neither the position nor what the BA step leaves. -/
theorem Vic.beforeAdvance_late : (v.beforeAdvance w).late = ((v.fetchSteps w).stepBa w.params).late := by
  rw [Vic.beforeAdvance, Vic.lightPen_late, Vic.pixels_late]

theorem Vic.beforeAdvance_shape : (v.beforeAdvance w).shape = v.shape := by
  rw [(Vic.late_eq (Vic.beforeAdvance_late v w)).1, Vic.stepBa_shape, Vic.fetchSteps_shape]

end

theorem Vic.advance_vsync (v : Vic) (p : Params) :
    (v.advance p).2 = true ↔ cyclesPerLine p.model ≤ v.x + 1 ∧ linesPerFrame p.model ≤ v.y + 1 := by
  unfold Vic.advance
  split_ifs with hx hy
  · simp [hx]
  · simp [hy]
  · simp [Nat.not_lt.mp hx, Nat.not_lt.mp hy]

/-- The position after a position in the frame. -/
theorem nextPos_of_lt {len lines x y : Nat} (hx : x < len) (hy : y < lines) :
    nextPos len lines (x, y) =
      (if x + 1 = len then 0 else x + 1, if x + 1 = len then (if y + 1 = lines then 0 else y + 1) else y) := by
  have hx' : x + 1 < len ↔ ¬ x + 1 = len := by omega
  have hy' : y + 1 < lines ↔ ¬ y + 1 = lines := by omega
  simp only [nextPos, hx', hy', ite_not]
  split_ifs <;> rfl

/-- Settles O52: the position is that of `Vic.tick_pos`, and the frame ends where `Vic.advance` starts the next one. -/
theorem rasterPosition : Obligations.RasterPosition := by
  intro v w hx hy last
  obtain ⟨hpos, -⟩ := Vic.tick_pos v w
  rw [nextPos_of_lt hx hy, Prod.mk.injEq] at hpos
  obtain ⟨hx', hy'⟩ := hpos
  obtain ⟨hbx, hby, -⟩ := Vic.shape_eq (Vic.beforeAdvance_shape v w)
  refine ⟨hx', hy', ?_, rfl, rfl, rfl, rfl⟩
  rw [Vic.tick_vsync, Vic.advance_vsync, hbx, hby]
  show _ ↔ v.x + 1 = _ ∧ _
  omega

/-! ### What the steps before BA leave alone (R663) -/

/-- The interrupt latches and what the BA step reads of the tick before. -/
def Vic.carried (v : Vic) : Nibble × Bool × Nat := (v.irr, v.baPrev, v.baLowCount)

theorem Vic.carried_eq {u v : Vic} (h : u.carried = v.carried) :
    u.irr = v.irr ∧ u.baPrev = v.baPrev ∧ u.baLowCount = v.baLowCount := by
  simpa [Vic.carried] using h

theorem Vic.startFrame_carried (v : Vic) : v.startFrame.carried = v.carried := by
  unfold Vic.startFrame; split <;> rfl

theorem Vic.latchDen_carried (v : Vic) : v.latchDen.carried = v.carried := by
  unfold Vic.latchDen; split <;> rfl

theorem Vic.display_carried (v : Vic) : v.display.carried = v.carried := by
  unfold Vic.display; split <;> rfl

theorem Vic.spriteRules_carried (v : Vic) : v.spriteRules.carried = v.carried := rfl

theorem Vic.counters_carried (v : Vic) : v.counters.carried = v.carried := by
  unfold Vic.counters
  dsimp only
  split
  · rfl
  · split_ifs <;> rfl
  · rfl

theorem Vic.gAccess_carried (v : Vic) (w : VicView) : (v.gAccess w).carried = v.carried := by
  unfold Vic.gAccess; split_ifs <;> rfl

theorem Vic.cAccess_carried (v : Vic) (w : VicView) : (v.cAccess w).carried = v.carried := by
  unfold Vic.cAccess; split <;> rfl

theorem Vic.accesses_carried (v : Vic) (w : VicView) : (v.accesses w).carried = v.carried := by
  have hsprites (v : Vic) (o : Oct Sprite) : ({ v with sprites := o } : Vic).carried = v.carried := rfl
  simp only [Vic.accesses, hsprites, Vic.cAccess_carried, Vic.gAccess_carried]

/-- Of the steps before BA only the raster compare sets a latch. -/
theorem Vic.fetchSteps_carried (v : Vic) (w : VicView) :
    (v.fetchSteps w).carried = v.startFrame.rasterCompare.carried := by
  rw [Vic.fetchSteps, Vic.accesses_carried, Vic.counters_carried, Vic.spriteRules_carried, Vic.display_carried,
    Vic.latchDen_carried]

/-! ### The raster latch (R664) -/

/-- Bit 0 of `irr`. -/
def Vic.rasterLatch (v : Vic) : Bool := bit v.irr 0

theorem Vic.rasterLatch_of_carried {u v : Vic} (h : u.carried = v.carried) : u.rasterLatch = v.rasterLatch := by
  rw [Vic.rasterLatch, (Vic.carried_eq h).1, Vic.rasterLatch]

/-- A latch other than bit 0 is not the raster latch. -/
theorem Vic.latchIrq_rasterLatch (v : Vic) {i : Nat} (h0 : i ≠ 0) (hi : i < 4) :
    (v.latchIrq i).rasterLatch = v.rasterLatch := by
  rw [Vic.rasterLatch, Vic.latchIrq, bit_putBit hi, if_neg h0.symm, Vic.rasterLatch]

theorem Vic.rasterCompare_rasterLatch (v : Vic) :
    v.rasterCompare.rasterLatch = (v.rasterLatch || decide (v.x = 0 ∧ v.y = v.rasterCmp.toNat)) := by
  unfold Vic.rasterCompare
  split_ifs with h
  · simp [h, Vic.rasterLatch, Vic.latchIrq, bit_putBit]
  · simp [h]

/-- The latch at the end of the steps before BA; the start of the frame changes nothing that the compare reads. -/
theorem Vic.fetchSteps_rasterLatch (v : Vic) (w : VicView) :
    (v.fetchSteps w).rasterLatch = (v.rasterLatch || decide (v.x = 0 ∧ v.y = v.rasterCmp.toNat)) := by
  obtain ⟨hx, hy, -⟩ := Vic.shape_eq (Vic.startFrame_shape v)
  have hcmp : v.startFrame.rasterCmp = v.rasterCmp := congrArg (·.rasterCmp) (Vic.startFrame_settings v)
  rw [Vic.rasterLatch_of_carried (Vic.fetchSteps_carried v w), Vic.rasterCompare_rasterLatch,
    Vic.rasterLatch_of_carried (Vic.startFrame_carried v), hx, hy, hcmp]

theorem Vic.stepBa_rasterLatch (v : Vic) (p : Params) : (v.stepBa p).rasterLatch = v.rasterLatch := rfl

theorem Vic.verticalBorder_rasterLatch (v : Vic) : v.verticalBorder.rasterLatch = v.rasterLatch := by
  unfold Vic.verticalBorder; split_ifs <;> rfl

theorem Vic.border_rasterLatch (v : Vic) (X : Nat) : (v.border X).rasterLatch = v.rasterLatch := by
  have hmain (v : Vic) (b : Bool) : ({ v with mainBorder := b } : Vic).rasterLatch = v.rasterLatch := rfl
  unfold Vic.border
  dsimp only
  split_ifs <;> simp only [hmain, Vic.verticalBorder_rasterLatch]

/-- A collision sets latches 1 and 2 only (R715, R716). -/
theorem Vic.collide_rasterLatch (v : Vic) (m : Byte) (fg : Bool) : (v.collide m fg).rasterLatch = v.rasterLatch := by
  unfold Vic.collide
  dsimp only
  split_ifs <;> simp [Vic.rasterLatch, Vic.latchIrq, bit_putBit]

theorem Vic.pixel_rasterLatch (v : Vic) (X : Nat) : (v.pixel X).1.rasterLatch = v.rasterLatch := by
  have hsprites (v : Vic) (o : Oct Sprite) : ({ v with sprites := o } : Vic).rasterLatch = v.rasterLatch := rfl
  unfold Vic.pixel
  dsimp only
  split
  · rw [Vic.collide_rasterLatch, hsprites, Vic.border_rasterLatch]
  · exact Vic.border_rasterLatch v X

theorem Vic.pixelRow_rasterLatch (p : Params) (n px : Nat) (v : Vic) (cell : BitVec 32) :
    (Vic.pixelRow p n px v cell).1.rasterLatch = v.rasterLatch := by
  induction n generalizing px v cell with
  | zero => rfl
  | succ n ih => rw [Vic.pixelRow, ih, Vic.pixel_rasterLatch]

theorem Vic.pixels_rasterLatch (v : Vic) (p : Params) : (v.pixels p).1.rasterLatch = v.rasterLatch := by
  rw [Vic.pixels, Vic.pixelRow_rasterLatch]
  split
  · exact Vic.verticalBorder_rasterLatch v
  · rfl

/-- The light pen sets latch 3 only (R720). -/
theorem Vic.lightPen_rasterLatch (v : Vic) (p : Params) (l : Bool) :
    (v.lightPen p l).rasterLatch = v.rasterLatch := by
  unfold Vic.lightPen
  dsimp only
  split
  · exact v.latchIrq_rasterLatch (i := 3) (by decide) (by decide)
  · rfl

theorem Vic.advance_carried (v : Vic) (p : Params) : (v.advance p).1.carried = v.carried := by
  unfold Vic.advance; split_ifs <;> rfl

/-- Settles O51: the compare sets the latch (`Vic.fetchSteps_rasterLatch`), and no later step of the tick touches it. -/
theorem rasterCompare : Obligations.RasterCompare := by
  intro v w
  show (v.tick w).vic.rasterLatch = (v.rasterLatch || _)
  rw [Vic.tick_vic, Vic.rasterLatch_of_carried (Vic.advance_carried _ _), Vic.beforeAdvance, Vic.lightPen_rasterLatch,
    Vic.pixels_rasterLatch, Vic.stepBa_rasterLatch, Vic.fetchSteps_rasterLatch]

/-! ### BA and AEC (R680, R681) -/

/-- A condition on some of the eight, by index. -/
theorem Oct.anyIdx_iff {α : Type} {f : Nat → α → Bool} {o : Oct α} :
    o.anyIdx f = true ↔ ∃ n < 8, f n (o.get n) = true := by
  constructor
  · intro h
    simp only [Oct.anyIdx, Bool.or_eq_true] at h
    obtain ((((((h | h) | h) | h) | h) | h) | h) | h := h
    · exact ⟨0, by decide, h⟩
    · exact ⟨1, by decide, h⟩
    · exact ⟨2, by decide, h⟩
    · exact ⟨3, by decide, h⟩
    · exact ⟨4, by decide, h⟩
    · exact ⟨5, by decide, h⟩
    · exact ⟨6, by decide, h⟩
    · exact ⟨7, by decide, h⟩
  · rintro ⟨n, hn, h⟩
    interval_cases n <;> simp only [Oct.get] at h <;> simp [Oct.anyIdx, h]

/-- A sprite asks for the bus in its two slot cycles and in the three cycles before them, modulo the line. -/
theorem cycleAhead_iff {len c s : Nat} (hlen : 0 < len) :
    cycleAhead len c s = true ↔ ∃ k < 5, (c + 3) % len = (s + k) % len := by
  have hs : s % len < len := Nat.mod_lt _ hlen
  have hdist : s + (c + 3 + len - s % len) ≡ c + 3 [MOD len] := by
    have hsum : s % len + (c + 3 + len - s % len) = c + 3 + len := by omega
    calc s + (c + 3 + len - s % len)
      _ ≡ s % len + (c + 3 + len - s % len) [MOD len] := (Nat.mod_modEq s len).symm.add_right _
      _ = c + 3 + len := hsum
      _ ≡ c + 3 [MOD len] := by simp [Nat.ModEq]
  rw [cycleAhead, decide_eq_true_iff]
  constructor
  · intro h
    exact ⟨_, h, hdist.symm.trans ((Nat.mod_modEq _ len).symm.add_left s)⟩
  · rintro ⟨k, hk, h⟩
    have hmod : c + 3 + len - s % len ≡ k [MOD len] := Nat.ModEq.add_left_cancel' s (hdist.trans h)
    rw [hmod]
    exact (Nat.mod_le k len).trans_lt hk

section
variable (v : Vic) (p : Params)

theorem Vic.aecLow_iff : v.aecLow p = true ↔ (v.bad = true ∧ 15 ≤ v.c ∧ v.c ≤ 54) ∨
    ∃ n < 8, (v.sprites.get n).dma = true ∧ (cycleAt (cyclesPerLine p.model) v.c (spriteSlot p n) 0 = true ∨
      cycleAt (cyclesPerLine p.model) v.c (spriteSlot p n) 1 = true) := by
  simp only [Vic.aecLow, Bool.or_eq_true, Bool.and_eq_true, decide_eq_true_eq, Oct.anyIdx_iff, and_assoc]

theorem Vic.baLow_iff : v.baLow p = true ↔ (v.bad = true ∧ 12 ≤ v.c ∧ v.c ≤ 54) ∨
    ∃ n < 8, (v.sprites.get n).dma = true ∧
      cycleAhead (cyclesPerLine p.model) v.c (spriteSlot p n) = true := by
  simp only [Vic.baLow, Bool.or_eq_true, Bool.and_eq_true, decide_eq_true_eq, Oct.anyIdx_iff, and_assoc]

/-- AEC is low only while BA is low. -/
theorem Vic.baLow_of_aecLow (h : v.aecLow p = true) : v.baLow p = true := by
  have hlen : 40 < cyclesPerLine p.model := (len_range p.model).1
  rw [Vic.aecLow_iff] at h
  rw [Vic.baLow_iff]
  obtain ⟨hbad, hlo, hhi⟩ | ⟨n, hn, hdma, hslot | hslot⟩ := h
  · exact .inl ⟨hbad, by omega, hhi⟩
  · exact .inr ⟨n, hn, hdma, cycleAt_ahead (by omega) (by omega) hslot (by omega)⟩
  · exact .inr ⟨n, hn, hdma, cycleAt_ahead (by omega) (by omega) hslot (by omega)⟩

end

theorem Vic.rasterCompare_ba (v : Vic) :
    v.rasterCompare.baPrev = v.baPrev ∧ v.rasterCompare.baLowCount = v.baLowCount := by
  unfold Vic.rasterCompare; split <;> exact ⟨rfl, rfl⟩

/-- The steps before BA leave the BA level and the count of the tick before. -/
theorem Vic.fetchSteps_ba (v : Vic) (w : VicView) :
    (v.fetchSteps w).baPrev = v.baPrev ∧ (v.fetchSteps w).baLowCount = v.baLowCount := by
  obtain ⟨-, hprev, hcount⟩ := Vic.carried_eq (Vic.fetchSteps_carried v w)
  obtain ⟨hprev', hcount'⟩ := v.startFrame.rasterCompare_ba
  obtain ⟨-, hprev'', hcount''⟩ := Vic.carried_eq v.startFrame_carried
  exact ⟨hprev.trans (hprev'.trans hprev''), hcount.trans (hcount'.trans hcount'')⟩

/-- The count of the tick is that of its BA step. -/
theorem Vic.tick_baLowCount (v : Vic) (w : VicView) :
    (v.tick w).vic.baLowCount = if v.baPrev then 0 else min (v.baLowCount + 1) 3 := by
  obtain ⟨-, -, hadvance⟩ := Vic.carried_eq (Vic.advance_carried (v.beforeAdvance w) w.params)
  obtain ⟨-, hba, -⟩ := Vic.late_eq (Vic.beforeAdvance_late v w)
  obtain ⟨hprev, hcount⟩ := Vic.fetchSteps_ba v w
  rw [Vic.tick_vic, hadvance, hba, Vic.stepBa, hprev, hcount]

/-- Settles O53: AEC and BA of the tick are `Vic.aecLow` and `Vic.baLow` after the fetch steps, read as arithmetic
modulo the line. -/
theorem busStealing : Obligations.BusStealing := by
  intro v w u len slot dma
  have hlen : 0 < cyclesPerLine w.params.model := (Nat.zero_lt_succ 39).trans (len_range w.params.model).1
  have haec : (v.tick w).aec = false ↔ u.aecLow w.params = true := by rw [Vic.tick_aec, Bool.not_eq_false']
  have hba : (v.tick w).vic.baPrev = false ↔ u.baLow w.params = true := by
    rw [(Vic.tick_pos v w).2, Bool.not_eq_false']
  refine ⟨haec.trans (Vic.aecLow_iff u w.params), ?_, Vic.tick_baLowCount v w⟩
  rw [hba, Vic.baLow_iff]
  simp only [cycleAhead_iff hlen]
  rfl

/-! ### On PAL the CPU has the bus in cycle 11 of every line (R680, R690, R782) -/

/-- No sprite slot of PAL reaches cycle 11 (R690). -/
theorem spriteSlot_pal_free {p : Params} (hp : p.model = .pal) {n : Nat} (hn : n < 8) :
    cycleAhead 63 11 (spriteSlot p n) = false := by
  have hfree : ∀ n < 8, cycleAhead 63 11 (if n < 3 then 58 + 2 * n else 2 * n - 5) = false := by decide
  have hslot : spriteSlot p n = if n < 3 then 58 + 2 * n else 2 * n - 5 := by simp [spriteSlot, hp]
  rw [hslot, hfree n hn]

/-- In cycle 11 a bad line does not yet want the bus, and no sprite does. -/
theorem Vic.baLow_pal_eleven {v : Vic} {p : Params} (hp : p.model = .pal) (hx : v.x = 10) : v.baLow p = false := by
  rw [← Bool.not_eq_true, Vic.baLow_iff, Vic.c, hx, hp]
  rintro (⟨-, hlo, -⟩ | ⟨n, hn, -, hahead⟩)
  · omega
  · exact Bool.false_ne_true ((spriteSlot_pal_free hp hn).symm.trans hahead)

/-- The CPU has the bus where BA is high. -/
theorem granted_of_baHigh (op : BusOp) {s : State}
    (h : (s.vic.fetchSteps (vicView (inputPhase s))).baLow s.params = false) : granted op (cpuView s) = true := by
  have haec : (s.vic.fetchSteps (vicView (inputPhase s))).aecLow s.params = false := by
    rw [← Bool.not_eq_true]
    intro hlow
    exact Bool.false_ne_true (h.symm.trans (Vic.baLow_of_aecLow _ _ hlow))
  have hview : (vicView (inputPhase s)).params = s.params := rfl
  obtain ⟨-, hba', haec'⟩ := cpuView_vic s
  rw [(Vic.tick_pos _ _).2, hview, h] at hba'
  rw [Vic.tick_aec, hview, haec] at haec'
  simp [granted, hba', haec']

/-! ### The raster position over master cycles (R661, R781) -/

theorem Vic.readEffect_shape (v : Vic) (r : Nat) : (v.readEffect r).shape = v.shape := by
  unfold Vic.readEffect; split <;> rfl

theorem ioReadEffect_shape (s : State) (t : IoTarget) : (ioReadEffect s t).vic.shape = s.vic.shape := by
  cases t with
  | vic r => exact Vic.readEffect_shape s.vic r
  | _ => rfl

theorem ioWrite_shape (s : State) (t : IoTarget) (v : Byte) : (ioWrite s t v).vic.shape = s.vic.shape := by
  cases t with
  | vic r => exact (Vic.late_eq (Vic.write_late s.vic r v)).1
  | _ => rfl

theorem readEffect_shape (s : State) (a : Word) : (readEffect s a).vic.shape = s.vic.shape := by
  unfold readEffect
  split
  · rfl
  · split
    case h_1 => exact ioReadEffect_shape s _
    all_goals rfl

theorem writeEffect_shape (s : State) (a : Word) (v : Byte) : (writeEffect s a v).vic.shape = s.vic.shape := by
  unfold writeEffect
  split
  · rfl
  · split
    · rfl
    · split
      case h_5 | h_6 => split <;> rfl
      case h_7 => exact ioWrite_shape s _ v
      all_goals rfl

/-- Neither a bus operation of the CPU nor a device moves the beam; the VIC tick does. -/
theorem NoReset.masterCycle_pos {op : BusOp} {upd : Byte → Regs → Regs} {s : State} (h : NoReset s) :
    ((masterCycle false op upd s).state.vic.x, (masterCycle false op upd s).state.vic.y) =
      nextPos (cyclesPerLine s.params.model) (linesPerFrame s.params.model) (s.vic.x, s.vic.y) := by
  have hbus (s : State) : (busPhase op upd s).2.vic.shape = s.vic.shape := by
    cases op with
    | read a => exact readEffect_shape s a
    | write a v => exact writeEffect_shape s a v
  have hshape : (masterCycle false op upd s).state.vic.shape = (s.vic.tick (vicView (inputPhase s))).vic.shape := by
    rw [h.masterCycle_state, devicePhases_vic, cpuPhase_frame (·.vic.shape) hbus fun _ => rfl, (cpuView_vic s).1]
  obtain ⟨hx, hy, -⟩ := Vic.shape_eq hshape
  rw [hx, hy]
  exact (Vic.tick_pos _ _).1

theorem masterCycle_noReset {op : BusOp} {upd : Byte → Regs → Regs} {s : State} (h : NoReset s) :
    NoReset (masterCycle false op upd s).state := by
  obtain ⟨-, ⟨-, hspec⟩ | ⟨-, -, hpasses⟩⟩ := masterCycle_spec (force := false) (op := op) (upd := upd) h
  · exact hspec.after.noReset
  · exact hpasses.noReset

/-- `n` master cycles move the beam `n` positions on. -/
theorem NoReset.masterCycles_pos (op : BusOp) (upd : Byte → Regs → Regs) (n : Nat) {s : State} (h : NoReset s) :
    let t := (fun u => (masterCycle false op upd u).state)^[n] s
    t.params = s.params ∧ (t.vic.x, t.vic.y) =
      (nextPos (cyclesPerLine s.params.model) (linesPerFrame s.params.model))^[n] (s.vic.x, s.vic.y) := by
  induction n generalizing s with
  | zero => exact ⟨rfl, rfl⟩
  | succ n ih =>
    obtain ⟨hparams, hpos⟩ := ih (masterCycle_noReset (op := op) (upd := upd) h)
    rw [masterCycle_params] at hparams
    rw [masterCycle_params, h.masterCycle_pos, ← Function.iterate_succ_apply] at hpos
    exact ⟨hparams, hpos⟩

/-- From a cycle of a line, a given cycle is reached in less than a line: a whole line would lead back to the start. -/
theorem nextPos_reach_lt {len lines x0 x : Nat} (h0 : x0 < len) (hx : x < len) (y : Nat) :
    ∃ n < len, ((nextPos len lines)^[n] (x, y)).1 = x0 := by
  obtain ⟨m, hm, y', hreach⟩ := nextPos_reach (lines := lines) x0 h0 x y
  obtain hlt | rfl := hm.lt_or_eq
  · exact ⟨m, hlt, congrArg Prod.fst hreach⟩
  · exact ⟨0, by omega, congrArg Prod.fst ((nextPos_fullLine hx).symm.trans hreach)⟩

/-- Settles O46: cycle 11 of a line is less than a line away (`nextPos_reach_lt`), and there BA is high
(`Vic.baLow_pal_eleven`). -/
theorem palBusIsGranted : Obligations.PalBusIsGranted := by
  intro op upd s h hpal hx
  have hlen : cyclesPerLine s.params.model = 63 := by rw [hpal]; rfl
  obtain ⟨n, hn, hreach⟩ :=
    nextPos_reach_lt (lines := linesPerFrame s.params.model) (x0 := 10) (by decide) hx s.vic.y
  obtain ⟨hparams, hpos⟩ := h.masterCycles_pos op upd n
  rw [hlen] at hpos
  refine ⟨n, hn, granted_of_baHigh op (Vic.baLow_pal_eleven ?_ ?_)⟩
  · rw [hparams, hpal]
  · rw [(Vic.shape_eq (Vic.fetchSteps_shape _ _)).1]
    exact (congrArg Prod.fst hpos).trans hreach

/-! ### The registers (R665, R71, R72, R81, R717, R725) -/

theorem Vic.irqOut_iff (v : Vic) : v.irqOut = true ↔ v.irr &&& v.imr ≠ 0 := by
  simp [Vic.irqOut]

/-- Bit 8 of a 9-bit number, and the eight bits below it. -/
theorem putBit_eight_eq_ofNat (v : BitVec 9) (c : Bool) :
    putBit v 8 c = BitVec.ofNat 9 ((if c then 256 else 0) + v.toNat % 256) := by
  revert v c
  decide

/-- $D012 keeps bit 8 of the compare register (R72). -/
theorem Vic.write_d012 (v : Vic) (b : Byte) : v.write 0x12 b =
    { v with rasterCmp := BitVec.ofNat 9 (256 * (v.rasterCmp.toNat / 256) + b.toNat) } := by
  have hlt : v.rasterCmp.toNat < 512 := v.rasterCmp.isLt
  have hhigh : (if bit v.rasterCmp 8 then 256 else 0) = 256 * (v.rasterCmp.toNat / 256) := by
    rw [bit_eq_decide]
    simp only [decide_eq_true_eq]
    split_ifs <;> omega
  have hlow : (b.setWidth 9).toNat % 256 = b.toNat := by
    rw [BitVec.toNat_setWidth]
    omega
  show { v with rasterCmp := putBit (b.setWidth 9) 8 (bit v.rasterCmp 8) } = _
  rw [putBit_eight_eq_ofNat, hhigh, hlow]

/-- $D011 holds bit 8 of the compare register in its bit 7 (R71, R72). -/
theorem Vic.write_d011 (v : Vic) (b : Byte) : v.write 0x11 b =
    { v with
      cr1 := b &&& 0x7F, rasterCmp := BitVec.ofNat 9 ((if bit b 7 then 256 else 0) + v.rasterCmp.toNat % 256) } := by
  rw [← putBit_eight_eq_ofNat]
  rfl

/-- $D02F..$D03F are not registers (R81). -/
theorem Vic.unused (v : Vic) (p : Params) (b : Byte) {r : Nat} (hr : 0x2F ≤ r) :
    v.readValue p r = 0xFF ∧ v.write r b = v := by
  have hsprite : ¬ r < 0x10 := by omega
  have hcolour : 0x20 ≤ r ∧ ¬ r ≤ 0x2E := by omega
  simp [Vic.readValue, Vic.write, hsprite, hcolour]

/-- Settles O54: register by register, from the VIC's read, read effect and write. -/
theorem vicRegisters : Obligations.VicRegisters := by
  intro s b r lines ry cmp
  have hread : ioValue s (.vic 0x11) = putBit s.vic.cr1 7 (decide (256 ≤ ry)) := rfl
  refine ⟨rfl, fun k hk => ?_, ?_, Vic.write_d012 s.vic b, Vic.write_d011 s.vic b, rfl, rfl,
    Vic.irqOut_iff (s.vic.write 0x19 b), Vic.irqOut_iff (s.vic.write 0x1A b), rfl, rfl,
    fun hr _ => Vic.unused s.vic s.params b hr⟩
  · rw [hread, bit_putBit (by decide), if_neg hk.ne]
  · rw [hread, bit_putBit (by decide), if_pos rfl]

end Sys2Proof.Machine
end

section
/-! PROOFS. The CPU's access to the bus (64_clock_bus.md R782, R783), the machine that does not run (R809, R811), and
the power-on state and its first step (70_reset_and_hazards.md R820, R821, R824). -/

namespace Sys2Proof.Machine

/-! ### Who has the bus (R782, R783) -/

/-- The condition of R782. -/
theorem granted_iff (op : BusOp) (s : State) :
    granted op s = true ↔ s.pins.aec = true ∧ (op.isWrite = true ∨ s.pins.ba = true ∨ s.vic.baLowCount < 3) := by
  simp [granted, or_assoc]

/-- The CPU has the bus in a master cycle if it is granted at the CPU's phase (R782). -/
theorem masterCycle_done_eq_granted (op : BusOp) (upd : Byte → Regs → Regs) (s : State) :
    (masterCycle false op upd s).done = granted op (cpuView s) := by simp [masterCycle]

/-- Settles O44: with no reset, a master cycle that does not give the CPU the bus is the device ticks of the stalled
phase (`masterCycle_stall`), which leave the CPU's side alone (`passes_stall`); the phases before the CPU's tick the
VIC only. -/
theorem stallChangesNothing : Obligations.StallChangesNothing := by
  intro op upd s h v o
  have hedge : o.reset = false := h.edge
  have hdone : o.done = granted op v := masterCycle_done_eq_granted op upd s
  refine ⟨hdone ▸ granted_iff op v, fun hstalled => ?_, ?_⟩
  · have hstate : o.state = devicePhases (stallPhase v) := masterCycle_stall hedge hstalled
    have hpasses : Passes s o.state := hstate ▸ passes_stall h
    have hlatches : o.state.latches = (stallPhase v).latches := hstate ▸ devicePhases_latches _
    exact ⟨hpasses, congrArg Latches.stalled hlatches, cpuView_cia1 s, cpuView_cia2 s, cpuView_sid s,
      (cpuView_vic s).1, hstate, busLoop_stall hedge hstalled⟩
  · have hstate : o.state = devicePhases (cpuPhase false op upd s) := h.masterCycle_state
    rw [hstate, devicePhases_cycle, cpuPhase_cycle]

/-! ### The machine that does not run (R809, R811) -/

/-- Running a sequence gives a next state (`run_next`), so a meaning faults in no state. -/
theorem exec_ne_fault (i : Instr) (s : State) (f : Fault) : exec i s ≠ .fault f := by
  cases hadm : admittedOpcode i.opcode with
  | true =>
    obtain ⟨t, ht⟩ := exec_of_admitted hadm s
    simp [ht]
  | false => simp [exec_of_refused hadm]

theorem finishOutcome_ne_fault {o : Host.Outcome State Fault Refusal} {f : Fault} (h : o ≠ .fault f) :
    finishOutcome o ≠ .fault f := by
  cases o with
  | next t => simp [finishOutcome]
  | fault g => exact h
  | refused r => simp [finishOutcome]

theorem run_ne_fault (m : Bus Unit) (s : State) (f : Fault) : run m s ≠ .fault f := by
  obtain ⟨t, ht⟩ := run_next m s
  simp [ht]

theorem runInstruction_ne_fault (s : State) (f : Fault) : runInstruction s ≠ .fault f := by
  unfold runInstruction
  split
  · exact finishOutcome_ne_fault (exec_ne_fault _ _ f)
  · simp

theorem runBoundary_ne_fault (s : State) (f : Fault) : runBoundary s ≠ .fault f := by
  unfold runBoundary
  split_ifs
  · exact finishOutcome_ne_fault (run_ne_fault _ _ f)
  · exact finishOutcome_ne_fault (run_ne_fault _ _ f)
  · exact finishOutcome_ne_fault (run_ne_fault _ _ f)
  · exact runInstruction_ne_fault _ f

theorem ending_ne_fault (o : Option Byte) (s : State) (f : Fault) : ending o s ≠ .fault f := by
  cases o <;> simp [ending]

theorem resume_ne_fault (s : State) (f : Fault) : resume s ≠ .fault f := by
  unfold resume
  split
  · exact ending_ne_fault _ _ f
  · simp

/-- A machine that was not built faults, and no other does (R811). -/
theorem step_eq_fault_iff {s : State} {f : Fault} : step s = .fault f ↔ f = .configError ∧ notBuilt s = true := by
  unfold step stepInstruction
  split_ifs with hbuilt hmiddle hrun
  · simp [hbuilt]
  · simp [hbuilt, resume_ne_fault]
  · simp [hbuilt, runBoundary_ne_fault]
  · simp [hbuilt]

/-- Settles O42: the two ways of not being built, each of which faults (`step_eq_fault_iff`), and the run flag. -/
theorem runFlagAndConfigError : Obligations.RunFlagAndConfigError := by
  intro s
  refine ⟨fun hcycle hparams => ?_, fun t img hcycle hsize => ?_, fun hbuilt hrun hboundary => ?_,
    fun f => step_eq_fault_iff.mp⟩
  · exact step_eq_fault_iff.mpr ⟨rfl, by simp [notBuilt, hcycle, hparams]⟩
  · rw [loadRom, if_neg hsize]
    exact step_eq_fault_iff.mpr ⟨rfl, by simp [notBuilt, failConfig, hcycle]⟩
  · simp [step, stepInstruction, hbuilt, hrun, hboundary]

/-! ### Power-on (R820, R821, R824) -/

theorem Vic.reset_wf (p : Params) : Vic.reset.Wf p where
  x := (Nat.zero_le _).trans_lt (len_range p.model).1
  y := (len_range p.model).2.2
  vmLine := rfl
  gLine := rfl
  ba := Nat.zero_le _
  cr1 := by decide
  cr2 := by decide
  memPtr := by decide

theorem Cia.reset_wf : Cia.reset.Wf := ⟨by decide, by decide⟩

/-- At any power-on the invariant holds, if the initial RAM is in canonical form. -/
theorem State.powerOn_inv {p : Params} (h : Memory.wf 0x10000 p.ramInit = true) (inp : Inputs) :
    Inv (State.powerOn p inp) where
  ram := h
  ramInit := h
  colour := colourInit_wf h
  nibbles := colourInit_nibbles _
  underPort0 := rfl
  underPort1 := rfl
  vic := Vic.reset_wf p
  cia1 := Cia.reset_wf
  cia2 := Cia.reset_wf
  irqCia1 := reset_lines.1
  nmiCia2 := reset_lines.1
  irqVic := reset_lines.2
  audio := rfl
  ticks := Nat.zero_le _

/-- Settles O59: `State.reset` is a power-on with RAM all zero. -/
theorem resetMeetsTheInvariant : Obligations.ResetMeetsTheInvariant :=
  State.powerOn_inv rfl Inputs.idle

/-- The CPU-RESET detector starts at the level of cycle 0 (R821). -/
theorem powerOn_resetEdge (p : Params) (inp : Inputs) : resetEdge (inputPhase (State.powerOn p inp)) = false :=
  Bool.and_not_self inp.reset0

/-- The cycle counter that a step leaves, where it leaves a state. -/
def cycleAfter (o : Host.Outcome State Fault Refusal) : Option Nat :=
  match o with
  | .next t => some t.cycle
  | .fault _ => none
  | .refused _ => none

/-- The CPU has the bus in each of the first seven master cycles: on raster line 0 the VIC takes none. -/
theorem cycleAfter_reset : cycleAfter (step State.reset) = some 7 := by decide

/-- The vector of the empty KERNAL image. -/
theorem vectorAt_reset {l m : Byte} (h : VectorAt State.reset 0xFFFC l m) : word m l = 0 := by
  obtain ⟨hlow, hhigh⟩ := h
  rw [hlow (by decide), hhigh (by decide)]
  decide

/-- Settles O41: the first step is the reset sequence (`resetSequenceRuns`), whose registers and latches its law gives;
that no cycle of it is stalled is a run of seven cycles. -/
theorem powerOnState : Obligations.PowerOnState := by
  obtain ⟨-, t, ht, u, rfl, d, e, f, g, k, l, m, hvector, hafter⟩ :=
    resetSequenceRuns State.reset rfl (by decide) rfl rfl rfl
  have hcycle : cycleAfter (.next (finish u)) = some 7 := ht ▸ cycleAfter_reset
  have hregs : (finish u).regs = _ := hafter.regs
  refine ⟨rfl, rfl, rfl, rfl, rfl, rfl, by decide, finish u, ht, Option.some.inj hcycle, ?_, ?_, ?_,
    hafter.resetPending, fun p inp => ⟨powerOn_resetEdge p inp, rfl⟩⟩
  · rw [hregs]
  · rw [hregs]
  · rw [hregs]
    exact vectorAt_reset hvector

end Sys2Proof.Machine
end
